-- ==== Sys2Proof/Word.lean ====
section
/-! DEFINITION. The byte, the only word of the BCM renderer, and its plainest arithmetic (spec/00_scope.md
section 7, spec/40_scheduler.md R77: every number of the block is unsigned). -/

namespace Sys2Proof

/-- An 8-bit value: a channel intensity, the bit counter, a mask, a frame byte (00_scope section 7). -/
abbrev Byte := BitVec 8

/-- `popcount(v)`: the number of bits of `v` that are 1 (00_scope section 7). -/
def popcount (v : Byte) : Nat :=
  ((List.range 8).filter fun i => v.getLsbD i).length

/-- The bits of a byte in wire order: bit 7 first, bit 0 last (20_memory R35, 42_serializer R107). -/
def bitsMsbFirst (b : Byte) : List Bool :=
  (List.range 8).map fun i => b.getLsbD (7 - i)

end Sys2Proof
end

