-- ==== Sys2Proof/Syntax.lean ====
section
/-! DEFINITION. The instructions: one constructor for each mnemonic of spec/opcode_table.json. The eight
`RENDER.Pk` and `IDLE` are what the counter decodes to (30_encoding R51), the other three what a protocol frame
decodes to (30_encoding R58). -/

namespace Sys2Proof

/-- An operation that a bit pattern selects (00_scope section 1: "instruction"). -/
inductive Instr where
  /-- `RENDER.P0`, counter value 0x01 (41_render R96). -/
  | renderP0
  /-- `RENDER.P1`, counter value 0x02 (41_render R97). -/
  | renderP1
  /-- `RENDER.P2`, counter value 0x04 (41_render R98). -/
  | renderP2
  /-- `RENDER.P3`, counter value 0x08 (41_render R99). -/
  | renderP3
  /-- `RENDER.P4`, counter value 0x10 (41_render R100). -/
  | renderP4
  /-- `RENDER.P5`, counter value 0x20 (41_render R101). -/
  | renderP5
  /-- `RENDER.P6`, counter value 0x40 (41_render R102). -/
  | renderP6
  /-- `RENDER.P7`, counter value 0x80 (41_render R103). -/
  | renderP7
  /-- `IDLE` with the counter value `x`, any value whose popcount is not 1 (40_scheduler R74). -/
  | idle (x : Byte)
  /-- `SETCOLORS`: `len` is the Length byte, `data` the data bytes that have arrived when the frame is read:
  all `len` of them, or a prefix (43_store_write R121, R122). -/
  | setColors (len : Byte) (data : List Byte)
  /-- `UNKNOWN` with its Action byte, any value but 0xA0 (43_store_write R127 step 4). -/
  | unknown (action : Byte)
  /-- `RESYNC` with the wrong start byte, any value but 0xFF (43_store_write R127 step 2). -/
  | resync (start : Byte)
  deriving DecidableEq, Repr

end Sys2Proof
end

