-- ==== Sys2Proof/WellFormed.lean ====
section
/-! DEFINITION. Which instructions some encoding stands for (spec/30_encoding.md R51, R58): the operands of a
well-formed instruction are those its rows of the opcode table admit. -/

namespace Sys2Proof

/-- The operand checks: `IDLE` never holds a value with exactly one bit set (R51), `UNKNOWN` never 0xA0 and
`RESYNC` never 0xFF (R58), and no more data bytes than the Length byte says have been read (43_store_write R121). -/
def Instr.wellFormed : Instr → Bool
  | .renderP0 | .renderP1 | .renderP2 | .renderP3 => true
  | .renderP4 | .renderP5 | .renderP6 | .renderP7 => true
  | .idle x => popcount x != 1
  | .setColors len data => data.length ≤ len.toNat
  | .unknown action => action != 0xA0#8
  | .resync start => start != 0xFF#8

end Sys2Proof
end

