-- ==== Sys2Proof/Decode.lean ====
section
/-! DEFINITION. The two decoders of spec/30_encoding.md, of the counter value (`CNT8`, R51) and of a protocol frame
(`PFRAME`, R58), the encoder written from the same formats, and the table of R63. -/

namespace Sys2Proof

/-- The two formats of the opcode table (30_encoding R63). -/
inductive Format where
  | cnt8
  | pframe
  deriving DecidableEq, Repr

/-- Why bytes are no instruction: each names the byte that is not there. A header is never illegal (30_encoding R60
gives every value an operation), so this is the only way to fail. -/
inductive DecodeError where
  /-- No byte at all (43_store_write R127 step 1). -/
  | noInput
  /-- The start byte 0xFF, and no Action byte yet (R127 step 3). -/
  | noAction
  /-- The header FF A0, and no Length byte yet (R127 step 5). -/
  | noLength
  deriving DecidableEq, Repr

/-- The `StartByte` of a protocol frame (30_encoding R58). -/
def startByte : Byte := 0xFF#8

/-- The `Action` byte of `SetColors` (30_encoding R58). -/
def setColorsAction : Byte := 0xA0#8

/-- `RENDER.Pk` for the one-hot counter value `2^k` (the table of 30_encoding R51). -/
def renderOf (x : Byte) : Instr :=
  if x = 0x01#8 then .renderP0
  else if x = 0x02#8 then .renderP1
  else if x = 0x04#8 then .renderP2
  else if x = 0x08#8 then .renderP3
  else if x = 0x10#8 then .renderP4
  else if x = 0x20#8 then .renderP5
  else if x = 0x40#8 then .renderP6
  else .renderP7

/-- Format `CNT8`: "if `popcount(x) = 1` the operation is `RENDER.Pk` ... otherwise the operation is `IDLE`"
(30_encoding R51). -/
def decodeCnt (x : Byte) : Instr :=
  if popcount x = 1 then renderOf x else .idle x

/-- Format `PFRAME` (30_encoding R58), read off the front of the received bytes, with the bytes it leaves.
`RESYNC` reads the start byte only (95_test_vectors V14: "byte1 is not consumed as an action"), `UNKNOWN` the two
header bytes, `SETCOLORS` the header, the Length byte and as many data bytes as have arrived, at most Length. -/
def decodeFrame : List Byte → Except DecodeError (Instr × List Byte)
  | [] => .error .noInput
  | b :: rest =>
    if b ≠ startByte then .ok (.resync b, rest)
    else match rest with
      | [] => .error .noAction
      | a :: rest =>
        if a ≠ setColorsAction then .ok (.unknown a, rest)
        else match rest with
          | [] => .error .noLength
          | len :: rest => .ok (.setColors len (rest.take len.toNat), rest.drop len.toNat)

/-- Both formats as one decoder, total on any bytes. -/
def decode : Format → List Byte → Except DecodeError (Instr × List Byte)
  | .cnt8, [] => .error .noInput
  | .cnt8, x :: rest => .ok (decodeCnt x, rest)
  | .pframe, bytes => decodeFrame bytes

/-- The format an instruction is encoded in (30_encoding R63). -/
def Instr.format : Instr → Format
  | .renderP0 | .renderP1 | .renderP2 | .renderP3 => .cnt8
  | .renderP4 | .renderP5 | .renderP6 | .renderP7 => .cnt8
  | .idle _ => .cnt8
  | .setColors _ _ | .unknown _ | .resync _ => .pframe

/-- The bytes of an instruction, first byte first (30_encoding R51, R58). -/
def encode : Instr → List Byte
  | .renderP0 => [0x01#8]
  | .renderP1 => [0x02#8]
  | .renderP2 => [0x04#8]
  | .renderP3 => [0x08#8]
  | .renderP4 => [0x10#8]
  | .renderP5 => [0x20#8]
  | .renderP6 => [0x40#8]
  | .renderP7 => [0x80#8]
  | .idle x => [x]
  | .setColors len data => startByte :: setColorsAction :: len :: data
  | .unknown action => [startByte, action]
  | .resync start => [start]

/-- The bytes of a table word of 16 bits: `{byte0, byte1}`, byte0 in bits 15:8 and first on the line (30_encoding
R58), with a Length byte of 0 after them (log 16). -/
def frameBytesOfWord (w : Nat) : List Byte :=
  [BitVec.ofNat 8 (w / 256), BitVec.ofNat 8 w, 0x00#8]

/-- The instruction of a table word: 8 bits are a `CNT8` value, 16 bits a `PFRAME` header (30_encoding R63). -/
def decodeTableWord (nbits w : Nat) : Option Instr :=
  if nbits = 8 then some (decodeCnt (BitVec.ofNat 8 w))
  else if nbits = 16 then (decodeFrame (frameBytesOfWord w)).toOption.map Prod.fst
  else none

/-- A row of the opcode table: a value `x` matches it when `(x & mask) = pattern` (30_encoding R63). -/
structure OpcodeRow where
  format   : Format
  mnemonic : String
  pattern  : BitVec 16
  mask     : BitVec 16
  deriving DecidableEq, Repr

/-- `(x & mask) = match` (30_encoding R63). -/
def OpcodeRow.matches (r : OpcodeRow) (x : BitVec 16) : Bool := x &&& r.mask == r.pattern

/-- The eight `RENDER.Pk` rows (30_encoding R51). -/
def renderRows : List OpcodeRow :=
  [⟨.cnt8, "RENDER.P0", 0x01#16, 0xFF#16⟩, ⟨.cnt8, "RENDER.P1", 0x02#16, 0xFF#16⟩,
   ⟨.cnt8, "RENDER.P2", 0x04#16, 0xFF#16⟩, ⟨.cnt8, "RENDER.P3", 0x08#16, 0xFF#16⟩,
   ⟨.cnt8, "RENDER.P4", 0x10#16, 0xFF#16⟩, ⟨.cnt8, "RENDER.P5", 0x20#16, 0xFF#16⟩,
   ⟨.cnt8, "RENDER.P6", 0x40#16, 0xFF#16⟩, ⟨.cnt8, "RENDER.P7", 0x80#16, 0xFF#16⟩]

/-- The `IDLE` row of a pair `i > j`: the values whose two highest set bits are `i` and `j` (30_encoding R51). -/
def idleRow (i j : Nat) : OpcodeRow :=
  ⟨.cnt8, "IDLE", BitVec.ofNat 16 (2 ^ i + 2 ^ j), BitVec.ofNat 16 (256 - 2 ^ j)⟩

/-- The 29 `IDLE` rows: zero, and one for every pair of bit positions (30_encoding R51). -/
def idleRows : List OpcodeRow :=
  ⟨.cnt8, "IDLE", 0x00#16, 0xFF#16⟩ ::
    (List.range 8).flatMap fun i => (List.range i).map fun j => idleRow i j

/-- The `UNKNOWN` row of bit position `p` of byte1: the bits above `p` equal those of 0xA0, bit `p` differs, the
bits below are free (30_encoding R58). -/
def unknownRow (p : Nat) : OpcodeRow :=
  ⟨.pframe, "UNKNOWN",
    startByte ++ ((setColorsAction ^^^ BitVec.ofNat 8 (2 ^ p)) &&& BitVec.ofNat 8 (256 - 2 ^ p)),
    0xFF#8 ++ BitVec.ofNat 8 (256 - 2 ^ p)⟩

/-- The `RESYNC` row of bit position `p` of byte0: the bits above `p` are 1, bit `p` is 0, the bits below and all
of byte1 are free (30_encoding R58). -/
def resyncRow (p : Nat) : OpcodeRow :=
  ⟨.pframe, "RESYNC", BitVec.ofNat 8 (256 - 2 ^ (p + 1)) ++ 0x00#8, BitVec.ofNat 8 (256 - 2 ^ p) ++ 0x00#8⟩

/-- The 17 `PFRAME` rows (30_encoding R58). -/
def frameRows : List OpcodeRow :=
  ⟨.pframe, "SETCOLORS", startByte ++ setColorsAction, 0xFF#8 ++ 0xFF#8⟩ ::
    ((List.range 8).map unknownRow ++ (List.range 8).map resyncRow)

/-- The 54 rows of the table (30_encoding R63). -/
def opcodeTable : List OpcodeRow := renderRows ++ idleRows ++ frameRows

/-- The mnemonic of an instruction, as the table spells it. -/
def Instr.mnemonic : Instr → String
  | .renderP0 => "RENDER.P0"
  | .renderP1 => "RENDER.P1"
  | .renderP2 => "RENDER.P2"
  | .renderP3 => "RENDER.P3"
  | .renderP4 => "RENDER.P4"
  | .renderP5 => "RENDER.P5"
  | .renderP6 => "RENDER.P6"
  | .renderP7 => "RENDER.P7"
  | .idle _ => "IDLE"
  | .setColors _ _ => "SETCOLORS"
  | .unknown _ => "UNKNOWN"
  | .resync _ => "RESYNC"

/-- The value the table matches: the counter byte, or the header `{byte0, byte1}`. For `RESYNC` byte1 is free and
given as an argument (30_encoding R58). -/
def Instr.tableWord (i : Instr) (byte1 : Byte) : BitVec 16 :=
  match i with
  | .setColors _ _ => startByte ++ setColorsAction
  | .unknown action => startByte ++ action
  | .resync start => start ++ byte1
  | i => (((encode i).headD 0x00#8).setWidth 16)

end Sys2Proof
end

