-- ==== Sys2Proof/Config.lean ====
section
/-! DEFINITION. The parameters of the block (spec/00_scope.md R5), the constants derived from them (R6), and the
free values: what the spec leaves open and no proof may evaluate. -/

namespace Sys2Proof.Config

/-- `STORE_LAYOUT`: the byte offset of each channel inside a sector record (20_memory R31). -/
inductive StoreLayout where
  | doc   -- padding 0, Red 1, Green 2, Blue 3 (the decided value, D4)
  | le    -- Blue 0, Green 1, Red 2, padding 3
  deriving DecidableEq, Repr

/-- `PARTIAL_ALIGN`: where the bits of a partly filled frame byte sit (30_encoding R55). -/
inductive PartialAlign where
  | left   -- first bit at bit 7, unused low bits 0 (the decided value, D9)
  | right  -- the bits in the low positions, unused high bits 0
  deriving DecidableEq, Repr

/-- The parameters of 00_scope R5 on which a rule depends. They are arguments of the model: State carries them and
no step changes them, so a statement about every state is a statement about every value (log 1). The number of
sectors is held as the last sector's index, so that `N >= 1` (D1) holds by construction. -/
structure Params where
  lastSector   : Nat
  storeLayout  : StoreLayout
  partialAlign : PartialAlign
  passAtomic   : Bool
  cntReset     : Byte
  readTimeout  : Nat
  deriving DecidableEq, Repr

/-- `BYTES_PER_SECTOR`, decided 4 (00_scope R5, D2). -/
def bytesPerSector : Nat := 4

/-- `NUM_SECTORS`, written `N` (00_scope R5). -/
def Params.numSectors (p : Params) : Nat := p.lastSector + 1

/-- The width of `rs.sec`: "enough bits for `N-1`" (10_state R15). -/
def Params.sectorBits (p : Params) : Nat := p.lastSector.log2 + 1

/-- `STORE_BYTES = N * BPS` (00_scope R6). -/
def Params.storeBytes (p : Params) : Nat := p.numSectors * bytesPerSector

/-- `CH_BYTES = ceil(N / 8)` (00_scope R6, 40_scheduler R77). -/
def Params.chBytes (p : Params) : Nat := (p.numSectors + 7) / 8

/-- `FRAME_BYTES = 3 * CH_BYTES` (00_scope R6). -/
def Params.frameBytes (p : Params) : Nat := 3 * p.chBytes

/-- `FRAME_BITS = 8 * FRAME_BYTES` (00_scope R6). -/
def Params.frameBits (p : Params) : Nat := 8 * p.frameBytes

/-- `PAD_BITS = 8 * CH_BYTES - N` (00_scope R6). -/
def Params.padBits (p : Params) : Nat := 8 * p.chBytes - p.numSectors

/-- `READS_PER_PASS = 3 * N` (00_scope R6). -/
def Params.readsPerPass (p : Params) : Nat := 3 * p.numSectors

/-- The parameters of `State.reset`: the values 00_scope R5 decides, `READ_TIMEOUT` at its default, and `N = 8`.
DESIGN CHOICE (log 1): the spec gives `N` no value; 8 is the size of its worked example `S8`. -/
def Params.initial : Params :=
  { lastSector := 7, storeLayout := .doc, partialAlign := .left, passAtomic := false, cntReset := 0x00#8,
    readTimeout := 1000 }

/-- A free yes or no: the `n`-th value the spec leaves open. No body, so no proof can depend on it (log 18). -/
opaque freeBit : Nat → Bool

/-- `STATUS_ERROR`, the byte value of the reserved `ERROR` status (00_scope R5, D27: OPEN, "never emitted"). -/
opaque statusError : Byte

end Sys2Proof.Config
end

