-- ==== Sys2Proof/Machine/State.lean ====
section
/-! DEFINITION. Everything the spec gives the machine to hold (spec/10_state.md, with the Protocol Handler of
spec/43_store_write.md R127, R128 and the chain of spec/42_serializer.md R112), as plain data, and its values after
reset (10_state R24). -/

namespace Sys2Proof.Machine

open Sys2Proof.Config

/-- A channel of a sector, in the order of emission B, G, R (41_render R86). -/
inductive Channel where
  | blue
  | green
  | red
  deriving DecidableEq, Repr

/-- `rs.phase` (10_state R15): `busy` from the tick that starts a pass until its `COMMIT`. -/
inductive Phase where
  | idle
  | busy
  deriving DecidableEq, Repr

/-- The render sequencer `rs` (10_state R15). The width of `sec` follows from the parameter `N`, so its bits are held as
a number, which is read through `Sequencer.sector` (log 19). -/
structure Sequencer where
  phase : Phase
  mask  : Byte
  ch    : Channel
  sec   : Nat
  acc   : Byte
  nacc  : BitVec 4
  deriving DecidableEq, Repr

/-- An event of the output trace (10_state R20). -/
inductive Event where
  | txnBegin
  | shift (b : Byte)
  | txnEnd
  | latchRise
  | latchFall
  deriving DecidableEq, Repr

/-- The reference model of the external registers (42_serializer R112): position 0 is nearest to the block. -/
structure Chain where
  sh : List Bool   -- shift stage
  ho : List Bool   -- holding stage, drives the LEDs
  deriving DecidableEq, Repr

/-- Where the Protocol Handler is in a frame (43_store_write R127). -/
inductive HandlerPhase where
  /-- Between frames (step 1). -/
  | idle
  /-- The start byte has been read, the Action byte has not (step 3). -/
  | action
  /-- The header FF A0 has been read, the Length byte has not (step 5). -/
  | length
  /-- The Length byte is `len`, and `k` data bytes have been read and written (step 5). -/
  | data (len : Byte) (k : Nat)
  deriving DecidableEq, Repr

/-- A byte that has been received, with the time it arrived at (43_store_write R128). -/
structure Received where
  byte : Byte
  time : Nat
  deriving DecidableEq, Repr

/-- The Protocol Handler: the bytes received and not yet read, oldest first, the status bytes sent, its wall clock in
time-units, and the time the read in progress began at (43_store_write R127, R128). -/
structure Handler where
  phase : HandlerPhase
  rx    : List Received
  tx    : List Byte
  now   : Nat
  began : Nat
  deriving DecidableEq, Repr

/-- One line of a stimulus script, an event of the environment (30_encoding R62). The last three are this model's
names for what reaches the Protocol Handler (43_store_write R127, R128; log 6). -/
inductive Line where
  /-- `RESET` (70_reset_and_hazards R165). -/
  | reset
  /-- `WR a, v`: one write through the write port (43_store_write R120). -/
  | wr (a : Nat) (v : Byte)
  /-- `SETCOLORS b0 b1 ...`: the writes `WR 0, b0`; `WR 1, b1`; ... with nothing in between (log 14). -/
  | setColors (data : List Byte)
  /-- `TICK`: one tick and, if it starts a pass, all its micro-steps. -/
  | tick
  /-- `TICK0`: one tick without the micro-steps of the pass it may start. -/
  | tick0
  /-- `RSTEP`: one micro-step of the pass in progress (41_render R91). -/
  | rstep
  /-- A byte arrives on the serial transport. -/
  | rx (b : Byte)
  /-- `n` time-units pass on the handler's wall clock. -/
  | elapse (n : Nat)
  /-- The handler runs as far as the received bytes go. -/
  | poll
  deriving DecidableEq, Repr

/-- What the model records as a fault (60_exceptions R142). The first three are taken: `State.raise` writes the fault
record and the step answers a next state; the next step other than RESET stops with the recorded fault, since "no
further step has a specified meaning" (92_eei_decisions D20; log 7). -/
inductive Fault where
  /-- A tick while a pass is in progress: raised by `State.tickEntry` and by `State.render`, with the counter before
  the increment and the mask of the unfinished pass (40_scheduler R70). Safe: the source says "undefined". -/
  | renderOverrun (cnt mask : Byte)
  /-- A write at or above STORE_BYTES: raised by `State.write` (20_memory R33, R39). Safe: the source says
  "corrupts adjacent memory". -/
  | storeOverrun (a : Nat) (v : Byte)
  /-- RENDER(m) with a mask that is not one-hot: raised by `State.render`, never through the gate (60_exceptions
  R142). Safe: the source says "caller error". -/
  | badMask (m : Byte)
  /-- A micro-step whose address is outside the store: answered by `State.microStep`, only in states that no run
  reaches, where `rs.sec` is not a sector (20_memory R32: "always in range"; log 8). Safe. -/
  | readOutsideStore (a : Nat)
  deriving DecidableEq, Repr

/-- Why a step has no meaning. -/
inductive Refusal where
  /-- An instruction without a meaning yet: no arm of `exec` answers it. Safe. -/
  | notModelled (mnemonic : String)
  /-- RSTEP while `rs.phase` is Idle: answered by `State.microStep`. "not enabled: the step does not exist; a script
  containing it is ill-formed, not a fault" (95_test_vectors V12; log 9). Safe. -/
  | rstepNotEnabled
  /-- A write between the first and the last read of a pass, with `PASS_ATOMIC = true`: answered by
  `State.admitWrites`. Such a schedule is not admitted (20_memory R47; log 10). Safe. -/
  | writeInsidePass
  deriving DecidableEq, Repr

/-- The Sector Store as (address, byte) pairs in canonical form (log 3): addresses strictly rising, and no pair that
holds what an unlisted address reads as. -/
abbrev Memory := List Host.Cell

/-- What an unlisted address of the store reads as: "initialized to all-zero (off) at startup" (10_state R24). -/
def Memory.unlisted : Byte := 0x00#8

/-- The whole machine: the block (10_state), the chain and the Protocol Handler around it, and what is still to come. -/
structure State where
  params  : Params                -- constant along a run (10_state R23; log 1)
  store   : Memory                -- the Sector Store (10_state R10)
  cnt     : Byte                  -- the bit counter (10_state R13)
  latch   : Bool                  -- true means asserted (10_state R14)
  rs      : Sequencer             -- the render sequencer (10_state R15)
  sdo     : Bool                  -- serial data output (10_state R19)
  sck     : Bool                  -- shift clock output (10_state R19)
  txn     : Bool                  -- transaction bracket output (10_state R19)
  out     : List (Nat × Event)    -- the output trace, oldest first, stamped with tick numbers (10_state R20)
  fault   : Option Fault          -- the fault record (10_state R21)
  t       : Nat                   -- the tick number (10_state section 1)
  chain   : Chain                 -- the external registers (10_state R22)
  handler : Handler               -- the Protocol Handler (43_store_write R127)
  script  : List Line             -- the environment's events still to come, next first (30_encoding R62; log 6)
  freeCtr : Nat                   -- the model's own: how many free values have been drawn (log 18)
  deriving DecidableEq, Repr

/-- `rs` after reset: Idle, the other fields unspecified by 10_state R24. DESIGN CHOICE: the values named here, on
which no statement rests (log 4). -/
def Sequencer.reset : Sequencer :=
  { phase := .idle, mask := 0x00#8, ch := .blue, sec := 0, acc := 0x00#8, nacc := 0#4 }

/-- The chain when power comes on: `FRAME_BITS` stages (70_reset_and_hazards R175), whose contents no source gives.
DESIGN CHOICE: zeros, on which no statement rests (log 5). -/
def Chain.powerUp (p : Params) : Chain :=
  { sh := List.replicate p.frameBits false, ho := List.replicate p.frameBits false }

/-- The handler when it starts (60_exceptions R148): between frames, nothing received, nothing sent (log 15). -/
def Handler.start : Handler := { phase := .idle, rx := [], tx := [], now := 0, began := 0 }

/-- The machine right after reset (10_state R24) with the parameters `p`. -/
def State.resetWith (p : Params) : State :=
  { params := p, store := [], cnt := p.cntReset, latch := false, rs := Sequencer.reset,
    sdo := false, sck := false, txn := false, out := [], fault := none, t := 0,
    chain := Chain.powerUp p, handler := Handler.start, script := [], freeCtr := 0 }

/-- The machine right after reset, with the parameters 00_scope R5 decides (log 1). -/
def State.reset : State := State.resetWith Params.initial

end Sys2Proof.Machine
end

