-- ==== Sys2Proof/Machine/Operands.lean ====
section
/-! DEFINITION. The operand forms: the address of a channel byte (spec/20_memory.md R31), the order of channels and
sectors (spec/41_render.md R86, R87) and the bit a mask selects (R88). -/

namespace Sys2Proof.Machine

open Sys2Proof.Config

/-- `OFF(ch)` (20_memory R31). -/
def channelOffset : StoreLayout → Channel → Nat
  | .doc, .red => 1
  | .doc, .green => 2
  | .doc, .blue => 3
  | .le, .blue => 0
  | .le, .green => 1
  | .le, .red => 2

/-- `OFF(PAD)` (20_memory R31). -/
def paddingOffset : StoreLayout → Nat
  | .doc => 0
  | .le => 3

/-- `ADDR(s, ch) = BPS * s + OFF(ch)` (20_memory R31). -/
def channelAddr (p : Params) (s : Nat) (ch : Channel) : Nat :=
  bytesPerSector * s + channelOffset p.storeLayout ch

/-- The address of the padding byte of sector `s` (20_memory R31, 30_encoding R53). -/
def paddingAddr (p : Params) (s : Nat) : Nat :=
  bytesPerSector * s + paddingOffset p.storeLayout

/-- The value of `rs.sec`: its low "enough bits for `N-1`" (10_state R15; log 19). Every read of `rs.sec` is this. -/
def Sequencer.sector (p : Params) (rs : Sequencer) : Nat := rs.sec % 2 ^ p.sectorBits

/-- `CHIDX(ch)`: the position of the channel in the emission order (00_scope section 7). -/
def channelIndex : Channel → Nat
  | .blue => 0
  | .green => 1
  | .red => 2

/-- The channel emitted at a position: Blue, Green, Red (41_render R86). -/
def channelOfIndex : Nat → Channel
  | 0 => .blue
  | 1 => .green
  | _ => .red

/-- The channel after `ch`; there is none after Red (41_render R91). -/
def nextChannel : Channel → Option Channel
  | .blue => some .green
  | .green => some .red
  | .red => none

/-- `1 if (v & m) != 0 else 0` (41_render R88). -/
def extractBit (v m : Byte) : Bool := v &&& m != 0x00#8

/-- The byte of `PACK` after the bit enters at position `nacc` of `acc` (41_render R89). -/
def packBit (align : PartialAlign) (bit : Bool) (acc : Byte) (nacc : Nat) : Byte :=
  match align with
  | .left => acc ||| (BitVec.ofNat 8 bit.toNat <<< (7 - nacc))
  | .right => (acc <<< 1) ||| BitVec.ofNat 8 bit.toNat

/-- A status of the Protocol Handler (30_encoding R59). -/
inductive Status where
  | success
  | timeout
  | unknownCmd
  | error
  deriving DecidableEq, Repr

/-- The byte value of a status (30_encoding R59); that of `ERROR` is open (92_eei_decisions D27). -/
def statusByte : Status → Byte
  | .success => 0xFF#8
  | .timeout => 0xE0#8
  | .unknownCmd => 0xE1#8
  | .error => statusError

end Sys2Proof.Machine
end

