-- ==== Sys2Proof/Machine/Flags.lean ====
section
/-! DEFINITION. The conditions of spec/10_state.md R17: `fire`, which is combinational, `busy`, which is an alias of
`rs.phase`, whether writes are admitted (spec/20_memory.md R47), and how the next byte the handler needs stands to its
deadline (spec/43_store_write.md R128). The third condition of R17, `latch`, is a field. -/

namespace Sys2Proof.Machine

/-- `POW2`: `fire = 1` exactly when the value has exactly one bit set (40_scheduler R72). -/
def fire (x : Byte) : Bool := popcount x == 1

/-- `busy`, also the output of that name (10_state R17, R25). -/
def State.busy (s : State) : Bool := s.rs.phase == .busy

/-- Between the first and the last read of a pass: one sector at least has been read, and one is still to be (20_memory
R41, R47). -/
def State.insidePass (s : State) : Bool :=
  s.busy && !(s.rs.ch == .blue && s.rs.sector s.params == s.params.lastSector)

/-- `PASS_ATOMIC = true` "admits only schedules in which no `WR` lies between the first and the last `RD` of a pass"
(20_memory R47). -/
def State.writesBarred (s : State) : Bool := s.params.passAtomic && s.insidePass

/-- The moment at which the deadline of the read in progress passes (43_store_write R128: `READ_TIMEOUT` since the read
began). -/
def State.deadline (s : State) : Nat := s.handler.began + s.params.readTimeout

/-- When the next byte came that the handler reads; the present moment where it has not come yet. -/
def State.readMoment (s : State) : Nat :=
  match s.handler.rx with
  | [] => s.handler.now
  | b :: _ => b.time

/-- How the next byte stands to the deadline of the read in progress (43_store_write R128). -/
inductive Timing where
  /-- It came before the deadline, or may still come before it. -/
  | inTime
  /-- It came at the very moment of the deadline, or that moment is the present one: the spec does not say which of the
  two the handler sees first (log 12). -/
  | tie
  /-- It came after the deadline, or it has not come and the deadline has passed. -/
  | late
  deriving DecidableEq, Repr

/-- The timing of the read in progress. The Action, the Length and the data bytes are read with a deadline; the start
byte is read where one is there (43_store_write R127 step 1) and meets none (log 13). -/
def State.timing (s : State) : Timing :=
  if s.handler.phase = .idle ∨ s.readMoment < s.deadline then .inTime
  else if s.readMoment = s.deadline then .tie
  else .late

end Sys2Proof.Machine
end

