-- ==== Sys2Proof/Machine/Ops.lean ====
section
/-! DEFINITION. The named operations over the store, the trace, the fault record and the handler's queues that every
meaning is built from. -/

namespace Sys2Proof.Machine

open Sys2Proof.Config

/-- What a step answers. -/
abbrev Result := Host.Outcome State Fault Refusal

/-- Go on from a next state; a stop stays a stop. -/
def andThen (r : Result) (k : State → Result) : Result :=
  match r with
  | .next s => k s
  | .fault f => .fault f
  | .refused w => .refused w

/-! ## The store -/

/-- The byte at an address, whatever the address (20_memory R32, R40: the latest write, or the reset value). -/
def Memory.read : Memory → Nat → Byte
  | [], _ => Memory.unlisted
  | (b, w) :: rest, a => if b = a then w else Memory.read rest a

/-- Replace the byte at an address, keeping the canonical form. -/
def Memory.write : Memory → Nat → Byte → Memory
  | [], a, v => if v = Memory.unlisted then [] else [(a, v)]
  | (b, w) :: rest, a, v =>
    if a < b then (if v = Memory.unlisted then (b, w) :: rest else (a, v) :: (b, w) :: rest)
    else if a = b then (if v = Memory.unlisted then rest else (a, v) :: rest)
    else (b, w) :: Memory.write rest a v

/-- Every address listed is at least `lo`, addresses rise strictly, and no byte is the unlisted one. -/
def Memory.wfFrom : Nat → Memory → Bool
  | _, [] => true
  | lo, (a, v) :: rest => lo ≤ a && v != Memory.unlisted && Memory.wfFrom (a + 1) rest

/-- The canonical form. -/
def Memory.wf (m : Memory) : Bool := Memory.wfFrom 0 m

/-- Every address listed is an address of a store of `size` bytes (20_memory R39). -/
def Memory.within (size : Nat) (m : Memory) : Bool := m.all fun c => c.1 < size

/-- `RD(a)`: the byte, where the address is in the store (20_memory R32). -/
def State.readByte (s : State) (a : Nat) : Option Byte :=
  if a < s.params.storeBytes then some (s.store.read a) else none

/-! ## Taking a fault -/

/-- `raise`: record the fault; the first one is kept (60_exceptions R142, R143, 10_state R21). Nothing else
changes: there is no saved pc, no vector and no mode (R140). -/
def State.raise (f : Fault) (s : State) : State :=
  { s with fault := some (s.fault.getD f) }

/-- `WR(a, v)` (20_memory R33, 43_store_write R120). -/
def State.write (a : Nat) (v : Byte) (s : State) : State :=
  if a < s.params.storeBytes then { s with store := s.store.write a v }
  else s.raise (.storeOverrun a v)

/-- The state after the writes of `data`, where they are admitted (20_memory R47). No byte is no write. -/
def State.admitWrites (s : State) (data : List Byte) (s' : State) : Result :=
  if s.writesBarred && !data.isEmpty then .refused .writeInsidePass else .next s'

/-! ## The trace -/

/-- `emit E`: append the event, stamped with the current tick number (00_scope section 7, 10_state R20). -/
def State.emit (e : Event) (s : State) : State :=
  { s with out := s.out ++ [(s.t, e)] }

/-! ## The sequencer -/

/-- Replace the sequencer. -/
def State.setRs (rs : Sequencer) (s : State) : State := { s with rs := rs }

/-! ## The handler's queues -/

/-- The handler moves to a phase. -/
def State.setHandlerPhase (p : HandlerPhase) (s : State) : State :=
  { s with handler := { s.handler with phase := p } }

/-- The values of the bytes that wait, oldest first. -/
def State.waiting (s : State) : List Byte := s.handler.rx.map Received.byte

/-- Replace the received bytes not yet read. -/
def State.setRx (bytes : List Received) (s : State) : State :=
  { s with handler := { s.handler with rx := bytes } }

/-- A new read begins now: the timer restarts (43_store_write R128: "the timer restarts for each new multi-byte read
call, not per-byte"). -/
def State.beginRead (p : HandlerPhase) (s : State) : State :=
  { s with handler := { s.handler with phase := p, began := s.handler.now } }

/-- "drain any remaining buffered input" (43_store_write R127). -/
def State.drain (s : State) : State := s.setRx []

/-- Send one status byte (30_encoding R59: "in the clear, no framing"). -/
def State.sendStatus (st : Status) (s : State) : State :=
  { s with handler := { s.handler with tx := s.handler.tx ++ [statusByte st] } }

/-- The end of a frame attempt: drain, one status byte, and the handler is between frames (43_store_write R127). -/
def State.endFrame (st : Status) (s : State) : State :=
  (s.drain.sendStatus st).setHandlerPhase .idle

/-- The next free yes or no (log 18). -/
def State.nextFree (s : State) : Bool := freeBit s.freeCtr

/-- A free value has been drawn. -/
def State.drawFree (s : State) : State := { s with freeCtr := s.freeCtr + 1 }

/-- The received bytes are drained or kept, and the spec does not say which (log 11, log 15). -/
def State.drainFreely (s : State) : State :=
  (s.setRx (if s.nextFree then [] else s.handler.rx)).drawFree

/-! ## Reset -/

/-- `RESET` (70_reset_and_hazards R165): every element of the block takes its value of 10_state R24, which clears the
fault record (60_exceptions R143), and a pass in progress is abandoned without an event. "The external chain is not
reset by the block." The handler starts again (60_exceptions R148); whether bytes that wait in the transport's queue
survive is free, and its wall clock goes on (log 15). The parameters and the events still to come are not the
block's. -/
def State.restart (s : State) : State :=
  let s := s.drainFreely
  { State.resetWith s.params with
    chain := s.chain, script := s.script, freeCtr := s.freeCtr,
    handler := { Handler.start with rx := s.handler.rx, now := s.handler.now } }

end Sys2Proof.Machine
end

