-- ==== Sys2Proof/Machine/Protocol.lean ====
section
/-! DEFINITION. The write side (spec/43_store_write.md): the burst of writes, the three operations a protocol frame
decodes to, and the Protocol Handler's reads and deadlines (R127, R128). -/

namespace Sys2Proof.Machine

/-- The writes `WR k, d_0`; `WR k+1, d_1`; ... with nothing in between (30_encoding R62, 20_memory R42). The first
write that raises a fault ends the burst (43_store_write R123). -/
def burst : Nat → List Byte → State → State
  | _, [], s => s
  | k, d :: ds, s =>
    let s := s.write k d
    if s.fault.isSome then s else burst (k + 1) ds s

/-- The data read of a `SetColors` frame of Length `len`, `k` bytes written so far, goes on with the bytes that have
arrived: each is written as it comes, and when all have been the frame ends with SUCCESS (43_store_write R121, R127
steps 5, 6). A frame of Length 0 ends at once (R124). -/
def State.takeData (len : Byte) (k : Nat) (data : List Byte) (s : State) : State :=
  let s := burst k data (s.setHandlerPhase (.data len k))
  if s.fault.isSome then s
  else if len.toNat ≤ k + data.length then s.endFrame .success
  else s.setHandlerPhase (.data len (k + data.length))

/-- `SETCOLORS` (43_store_write R121, R122): the data read begins, and takes the data bytes that are there; a frame
whose data has not all arrived stays open, for later bytes or the deadline. "exactly `Length` data bytes": never
more. -/
def execSetColors (len : Byte) (data : List Byte) (s : State) : Result :=
  let d := data.take len.toNat
  s.admitWrites d ((s.beginRead (.data len 0)).takeData len 0 d)

/-- `UNKNOWN`: "drain input; send UNKNOWN_CMD; return", no write (43_store_write R127 step 4). -/
def execUnknown (_action : Byte) (s : State) : Result := .next (s.endFrame .unknownCmd)

/-- `RESYNC`: "silent: no status byte, no write" (43_store_write R127 step 2); whether the input is drained is free
(93_implementation_defined U16; log 11). -/
def execResync (_start : Byte) (s : State) : Result := .next (s.drainFreely.setHandlerPhase .idle)

/-- The bytes of the frame in progress that the handler has read (43_store_write R127). -/
def HandlerPhase.header : HandlerPhase → List Byte
  | .idle => []
  | .action => [startByte]
  | .length => [startByte, setColorsAction]
  | .data len _ => [startByte, setColorsAction, len]

/-- The handler waits for the byte that is not there: a read of it begins, unless it has begun before (43_store_write
R127, R128). -/
def State.await (e : DecodeError) (s : State) : State :=
  match e with
  | .noInput => s
  | .noAction => if s.handler.phase = .action then s else (s.setRx []).beginRead .action
  | .noLength => if s.handler.phase = .length then s else (s.setRx []).beginRead .length

/-- The deadline of the read in progress ends the frame with TIMEOUT (43_store_write R122, R127, R128). -/
def State.timeOut (s : State) : State := s.endFrame .timeout

/-- A byte arrives on the serial transport, now (43_store_write R127, R128). -/
def State.receive (b : Byte) (s : State) : State :=
  s.setRx (s.handler.rx ++ [{ byte := b, time := s.handler.now }])

/-- Time passes on the handler's wall clock (43_store_write R128). -/
def State.elapse (n : Nat) (s : State) : State :=
  { s with handler := { s.handler with now := s.handler.now + n } }

end Sys2Proof.Machine
end

