-- ==== Sys2Proof/Machine/Serializer.lean ====
section
/-! DEFINITION. The frame serializer (spec/42_serializer.md): `TXN_BEGIN`, `SHIFT` and its bits, `TXN_END`, `COMMIT`,
`LATCH_FALL`, and the reference chain of R112 that they drive. -/

namespace Sys2Proof.Machine

/-- `on BIT(x)`: every stage takes the one before it, stage 0 takes `x`, the last bit is lost (42_serializer R112). -/
def shiftIn (x : Bool) (sh : List Bool) : List Bool := (x :: sh).take sh.length

/-- `TXN_BEGIN` (42_serializer R105). -/
def State.txnBegin (s : State) : State := { s with txn := true }.emit .txnBegin

/-- `sdo <- x`, the first half of `BIT(x)` (42_serializer R107). -/
def State.driveData (x : Bool) (s : State) : State := { s with sdo := x }

/-- The pulse of `sck`, on which the chain shifts the level of `sdo` in; after it `sck` is low again (42_serializer
R107, R112; log 17). -/
def State.pulseClock (s : State) : State :=
  { s with sck := false, chain := { s.chain with sh := shiftIn s.sdo s.chain.sh } }

/-- `BIT(x)` (42_serializer R107). -/
def State.bitOut (s : State) (x : Bool) : State := (s.driveData x).pulseClock

/-- `SHIFT(b)`: the event, and its eight bits, bit 7 first (42_serializer R106, R107). -/
def State.shiftByte (b : Byte) (s : State) : State :=
  ((bitsMsbFirst b).foldl State.bitOut s).emit (.shift b)

/-- `TXN_END` (42_serializer R108). -/
def State.txnEnd (s : State) : State := { s with txn := false }.emit .txnEnd

/-- `COMMIT`: assert the latch; on its rising edge the chain copies the shift stage to the outputs (42_serializer
R109, R112). -/
def State.commit (s : State) : State :=
  { s with latch := true, chain := { s.chain with ho := s.chain.sh } }.emit .latchRise

/-- `LATCH_FALL`: "if latch = 1: latch <- 0 ; emit LATCH_FALL"; nothing otherwise (42_serializer R110). -/
def State.latchFall (s : State) : State :=
  if s.latch then { s with latch := false }.emit .latchFall else s

end Sys2Proof.Machine
end

