-- ==== Sys2Proof/Machine/Render.lean ====
section
/-! DEFINITION. The render pass (spec/41_render.md): its start (40_scheduler R73), the micro-step and its parts, the
pass as a whole, and the eight decoded forms. -/

namespace Sys2Proof.Machine

open Sys2Proof.Config

/-- The sequencer at the start of a pass with mask `m` (40_scheduler R73). -/
def Sequencer.started (p : Params) (m : Byte) : Sequencer :=
  { phase := .busy, mask := m, ch := .blue, sec := p.lastSector, acc := 0x00#8, nacc := 0#4 }

/-- The gate starts a pass: `rs` is loaded and `TXN_BEGIN` emitted (40_scheduler R73). -/
def State.startPass (m : Byte) (s : State) : State :=
  (s.setRs (Sequencer.started s.params m)).txnBegin

/-- `PACK` (41_render R89). -/
def State.pack (bit : Bool) (s : State) : State :=
  s.setRs { s.rs with
    acc := packBit s.params.partialAlign bit s.rs.acc s.rs.nacc.toNat, nacc := s.rs.nacc + 1#4 }

/-- "if rs.nacc = 8 or rs.sec = 0" (41_render R90). -/
def State.flushDue (s : State) : Bool := s.rs.nacc == 8#4 || s.rs.sector s.params == 0

/-- `FLUSH` (41_render R90). -/
def State.flush (s : State) : State :=
  if s.flushDue then
    (s.shiftByte s.rs.acc).setRs { s.rs with acc := 0x00#8, nacc := 0#4 }
  else s

/-- The end of a pass: `TXN_END`, `COMMIT`, Idle (41_render R91, R93). -/
def State.finish (s : State) : State :=
  let s := s.txnEnd.commit
  s.setRs { s.rs with phase := .idle }

/-- The last part of a micro-step: the next sector, the next channel, or the end of the pass (41_render R91). -/
def State.advance (s : State) : State :=
  if 0 < s.rs.sector s.params then s.setRs { s.rs with sec := s.rs.sector s.params - 1 }
  else match nextChannel s.rs.ch with
    | some ch => s.setRs { s.rs with ch := ch, sec := s.params.lastSector }
    | none => s.finish

/-- A micro-step once its byte `v` has been read (41_render R91). -/
def State.absorb (v : Byte) (s : State) : State :=
  (s.pack (extractBit v s.rs.mask)).flush.advance

/-- The address `EXTRACT` reads (41_render R88). -/
def State.readAddr (s : State) : Nat := channelAddr s.params (s.rs.sector s.params) s.rs.ch

/-- `RSTEP` (41_render R91): "Enabled only when `rs.phase = Busy`" (log 9). The read is in range in every state a
run reaches (20_memory R32; log 8). -/
def State.microStep (s : State) : Result :=
  if s.busy then
    match s.readByte s.readAddr with
    | some v => .next (s.absorb v)
    | none => .fault (.readOutsideStore s.readAddr)
  else .refused .rstepNotEnabled

/-- The micro-steps of the pass in progress, at most `n` of them, with nothing in between. -/
def runPass : Nat → State → Result
  | 0, s => .next s
  | n + 1, s => if s.busy then andThen s.microStep (runPass n) else .next s

/-- The rest of the pass in progress; nothing where there is none. -/
def State.finishPass (s : State) : Result := runPass s.params.readsPerPass s

/-- `RENDER(m)` (41_render R85). A mask that is not one-hot raises `BadMask` and a pass in progress `RenderOverrun`
(60_exceptions R142; log 20); neither can happen through the gate. Otherwise the pass starts, and its micro-steps are
steps that follow (40_scheduler R73); whether writes may fall between them is `State.writesBarred` (log 10). -/
def State.render (m : Byte) (s : State) : Result :=
  if popcount m ≠ 1 then .next (s.raise (.badMask m))
  else if s.busy then .next (s.raise (.renderOverrun s.cnt s.rs.mask))
  else .next (s.startPass m)

/-- `RENDER.P0` (41_render R96). -/
def execRenderP0 (s : State) : Result := s.render 0x01#8

/-- `RENDER.P1` (41_render R97). -/
def execRenderP1 (s : State) : Result := s.render 0x02#8

/-- `RENDER.P2` (41_render R98). -/
def execRenderP2 (s : State) : Result := s.render 0x04#8

/-- `RENDER.P3` (41_render R99). -/
def execRenderP3 (s : State) : Result := s.render 0x08#8

/-- `RENDER.P4` (41_render R100). -/
def execRenderP4 (s : State) : Result := s.render 0x10#8

/-- `RENDER.P5` (41_render R101). -/
def execRenderP5 (s : State) : Result := s.render 0x20#8

/-- `RENDER.P6` (41_render R102). -/
def execRenderP6 (s : State) : Result := s.render 0x40#8

/-- `RENDER.P7` (41_render R103). -/
def execRenderP7 (s : State) : Result := s.render 0x80#8

end Sys2Proof.Machine
end

