-- ==== Sys2Proof/Machine/Scheduler.lean ====
section
/-! DEFINITION. The scheduler (spec/40_scheduler.md): the part of `TICK` before the decoded operation, and `IDLE`. -/

namespace Sys2Proof.Machine

/-- `INC` (40_scheduler R71): the addition of bytes wraps. -/
def State.inc (s : State) : State := { s with cnt := s.cnt + 1#8 }

/-- `t <- t + 1` (40_scheduler R70). -/
def State.countTick (s : State) : State := { s with t := s.t + 1 }

/-- `TICK` up to the gate, in the order of 40_scheduler R70: count the tick; a pass in progress raises
`RenderOverrun` and the tick stops; else the latch is cleared and the counter incremented. -/
def State.tickEntry (s : State) : State :=
  let s := s.countTick
  if s.busy then s.raise (.renderOverrun s.cnt s.rs.mask) else s.latchFall.inc

/-- What the gate decodes: the new counter value (40_scheduler R70, R72, R73; 30_encoding R51). -/
def State.gate (s : State) : Instr := decodeCnt s.cnt

/-- `IDLE`: "when `fire = 0` the tick does nothing more" (40_scheduler R74). -/
def execIdle (_x : Byte) (s : State) : Result := .next s

end Sys2Proof.Machine
end

