-- ==== Sys2Proof/Machine/Dispatch.lean ====
section
/-! DEFINITION. One arm per instruction, each a call of its meaning. -/

namespace Sys2Proof.Machine

def exec (i : Instr) (s : State) : Host.Outcome State Fault Refusal :=
  match i with
  | .renderP0 => Sys2Proof.Machine.execRenderP0 s
  | .renderP1 => Sys2Proof.Machine.execRenderP1 s
  | .renderP2 => Sys2Proof.Machine.execRenderP2 s
  | .renderP3 => Sys2Proof.Machine.execRenderP3 s
  | .renderP4 => Sys2Proof.Machine.execRenderP4 s
  | .renderP5 => Sys2Proof.Machine.execRenderP5 s
  | .renderP6 => Sys2Proof.Machine.execRenderP6 s
  | .renderP7 => Sys2Proof.Machine.execRenderP7 s
  | .idle x => Sys2Proof.Machine.execIdle x s
  | .setColors len data => Sys2Proof.Machine.execSetColors len data s
  | .unknown action => Sys2Proof.Machine.execUnknown action s
  | .resync start => Sys2Proof.Machine.execResync start s

end Sys2Proof.Machine
end

