-- ==== Sys2Proof/Machine/Sequencing.lean ====
section
/-! DEFINITION. What one event does (spec/30_encoding.md R62, spec/60_exceptions.md R135): a tick, a micro-step, a
write, a reset, or a move of the Protocol Handler. `run` is the meaning of a decoded instruction; Machine/Step.lean
gives `exec` for it. -/

namespace Sys2Proof.Machine

/-- `TICK0` (30_encoding R62): `TICK` of 40_scheduler R70, without the micro-steps of the pass it may start. -/
def State.tick0With (run : Instr → State → Result) (s : State) : Result :=
  let s := s.tickEntry
  if s.fault.isSome then .next s else run s.gate s

/-- `TICK` (30_encoding R62): one tick "and, if it starts a pass, all `3*N` micro-steps of that pass, with nothing in
between". A tick that raised a fault goes no further. -/
def State.tickWith (run : Instr → State → Result) (s : State) : Result :=
  andThen (s.tick0With run) fun s => if s.fault.isSome then .next s else s.finishPass

/-- The data bytes a read takes: the waiting ones that came before `bound`, and no more than are still to come
(43_store_write R121, R128). -/
def State.readable (bound n : Nat) (s : State) : List Byte :=
  ((s.handler.rx.takeWhile fun b => b.time < bound).map Received.byte).take n

/-- The handler reads on: the data bytes of a burst in progress that came before `bound`, or the frame that starts with
the header bytes it has read (43_store_write R127; log 13). -/
def State.readOnWith (run : Instr → State → Result) (bound : Nat) (s : State) : Result :=
  match s.handler.phase with
  | .data len k =>
    let d := s.readable bound (len.toNat - k)
    s.admitWrites d ((s.setRx (s.handler.rx.drop d.length)).takeData len k d)
  | phase =>
    match decodeFrame (phase.header ++ s.waiting) with
    | .ok (i, rest) => run i (s.setRx (s.handler.rx.drop (s.handler.rx.length - rest.length)))
    | .error e => .next (s.await e)

/-- The handler runs as far as the received bytes go (43_store_write R127, R128). A read goes on with the bytes that came
before its deadline; where the next one came after it, or has not come and the deadline has passed, the read times
out; where the two meet, the spec does not say which comes first, and a free value does (log 12). -/
def State.pollWith (run : Instr → State → Result) (s : State) : Result :=
  match s.timing with
  | .inTime => s.readOnWith run s.deadline
  | .tie => if s.nextFree then .next s.drawFree.timeOut else s.drawFree.readOnWith run (s.deadline + 1)
  | .late => .next s.timeOut

/-- What one line of the script does (30_encoding R62). DESIGN CHOICE: the lines `WR` and `SETCOLORS` are writes of their
own, also while the handler has a frame open; 20_memory R42 and 43_store_write R126 have one writer and bursts that do
not overlap, and do not say what such a script does (log 23). -/
def State.performWith (run : Instr → State → Result) (l : Line) (s : State) : Result :=
  match l with
  | .reset => .next s.restart
  | .wr a v => s.admitWrites [v] (s.write a v)
  | .setColors data => s.admitWrites data (burst 0 data s)
  | .tick => s.tickWith run
  | .tick0 => s.tick0With run
  | .rstep => s.microStep
  | .rx b => .next (s.receive b)
  | .elapse n => .next (s.elapse n)
  | .poll => s.pollWith run

/-- The event when the script is empty. DESIGN CHOICE (log 6): the pass in progress goes on, so that it finishes
before the next tick (70_reset_and_hazards R170); else the handler runs when bytes are queued (43_store_write R127:
"invoked whenever the transport reports available input"); else the timer ticks. -/
def State.defaultLine (s : State) : Line :=
  if s.busy then .rstep else if s.handler.rx = [] then .tick0 else .poll

/-- The next event: the first line of the script, or the default one. -/
def State.nextLine (s : State) : Line := s.script.headD s.defaultLine

/-- The script without its first line. -/
def State.dropLine (s : State) : State := { s with script := s.script.tail }

/-- One step. A recorded fault ends the run: only `RESET` has a meaning after it (60_exceptions R143,
92_eei_decisions D20; log 7). -/
def State.stepWith (run : Instr → State → Result) (s : State) : Result :=
  match s.fault with
  | none => s.dropLine.performWith run s.nextLine
  | some f => if s.nextLine = .reset then .next s.dropLine.restart else .fault f

/-- The state in which the next event is a tick that gives the counter the value `x` (log 16). -/
def State.placeCounter (x : Byte) (s : State) : State :=
  { s with
    fault := none, script := .tick0 :: s.script, cnt := x - 1#8, rs := { s.rs with phase := .idle } }

/-- The state in which the next event is a move of the handler that finds the bytes of a new frame (log 16). -/
def State.placeFrame (bytes : List Byte) (s : State) : State :=
  { s with
    fault := none, script := .poll :: s.script,
    handler := { s.handler with
      phase := .idle, rx := bytes.map (fun b => { byte := b, time := s.handler.now }) ++ s.handler.rx } }

end Sys2Proof.Machine
end

