-- ==== Sys2Proof/Machine/Step.lean ====
section
/-! DEFINITION. The step: the next event of the script, with `exec` for the meaning of what it decodes
(Machine/Sequencing.lean holds the parts). -/

namespace Sys2Proof.Machine

/-- One step of the machine: one atomic event of one agent (spec/30_encoding.md R62). -/
def step (s : State) : Host.Outcome State Fault Refusal := s.stepWith exec

/-- `s` with the instruction of a table word where the next step decodes it: a counter value one below it with a tick
to come, or the bytes of a frame in the handler's queue with a move of the handler to come (log 16). -/
def State.withFetchWord (s : State) (nbits w : Nat) : State :=
  if nbits = 8 then s.placeCounter (BitVec.ofNat 8 w)
  else if nbits = 16 then s.placeFrame (frameBytesOfWord w)
  else s

end Sys2Proof.Machine
end

