-- ==== Sys2Proof/Machine/Format.lean ====
section
/-! DEFINITION. The formats of what the block sends, as functions of the store, written from spec/30_encoding.md R54
to R57 and not from the pass: the frame, its bit stream, the events of a pass (42_serializer R111), the chain positions
(R113), the hold times (40_scheduler R76) and the on-time (42_serializer R114). The step does not use them; statements
compare the two. -/

namespace Sys2Proof.Machine

open Sys2Proof.Config

/-- `bit(s, ch, m)` (30_encoding R55). -/
def sectorBit (p : Params) (store : Memory) (m : Byte) (s : Nat) (ch : Channel) : Bool :=
  extractBit (store.read (channelAddr p s ch)) m

/-- How many positions of byte `j` of a channel are used: `n = min(8, N - 8j)` (30_encoding R55). -/
def usedBits (p : Params) (j : Nat) : Nat := min 8 (p.numSectors - 8 * j)

/-- The bit position of the `i`-th of `n` used positions of a frame byte (30_encoding R55). -/
def bitPosition : PartialAlign → Nat → Nat → Nat
  | .left, _, i => 7 - i
  | .right, n, i => n - 1 - i

/-- The byte that carries the used positions `i = 0 .. n-1` (30_encoding R55: the sum of the bits, each shifted to its
position; the positions are distinct). -/
def assembleByte (align : PartialAlign) (n : Nat) (bit : Nat → Bool) : Byte :=
  (List.range n).foldl (fun b i => b ||| BitVec.ofNat 8 (bit i).toNat <<< bitPosition align n i) 0x00#8

/-- Frame byte `j` of a channel: position `i` holds sector `N - 1 - 8j - i` (30_encoding R54, R55). -/
def channelByte (p : Params) (store : Memory) (m : Byte) (ch : Channel) (j : Nat) : Byte :=
  assembleByte p.partialAlign (usedBits p j)
    fun i => sectorBit p store m (p.numSectors - 1 - 8 * j - i) ch

/-- Frame byte `f`: channel `f div CH_BYTES`, byte `f mod CH_BYTES` of it (30_encoding R55). -/
def frameByte (p : Params) (store : Memory) (m : Byte) (f : Nat) : Byte :=
  channelByte p store m (channelOfIndex (f / p.chBytes)) (f % p.chBytes)

/-- The shift-register frame, byte 0 first (30_encoding R54). -/
def frame (p : Params) (store : Memory) (m : Byte) : List Byte :=
  (List.range p.frameBytes).map (frameByte p store m)

/-- Format `BITS`: the frame in wire order (30_encoding R57). -/
def frameBitStream (bytes : List Byte) : List Bool := bytes.flatMap bitsMsbFirst

/-- The events of one pass (42_serializer R111). -/
def passEvents (bytes : List Byte) : List Event :=
  .txnBegin :: (bytes.map Event.shift ++ [.txnEnd, .latchRise])

/-- The stream bit that carries sector `s` of channel `ch` (30_encoding R57). -/
def streamIndex (p : Params) (s : Nat) (ch : Channel) : Nat :=
  let w := 8 * p.chBytes
  let r := p.numSectors % 8
  match p.partialAlign with
  | .left => channelIndex ch * w + (p.numSectors - 1 - s)
  | .right =>
    if r ≤ s ∨ r = 0 then channelIndex ch * w + (p.numSectors - 1 - s)
    else channelIndex ch * w + p.padBits + (p.numSectors - 1 - s)

/-- The chain position where sector `s` of channel `ch` lands (42_serializer R113). -/
def chainPosition (p : Params) (s : Nat) (ch : Channel) : Nat :=
  let base := (2 - channelIndex ch) * (8 * p.chBytes)
  let r := p.numSectors % 8
  match p.partialAlign with
  | .left => base + p.padBits + s
  | .right => if r = 0 ∨ s < r then base + s else base + p.padBits + s

/-- The ticks for which plane `k` stays on the outputs (40_scheduler R76). -/
def holdTicks (k : Nat) : Nat := if k = 7 then 129 else 2 ^ k

/-- `ON(v) = v + v[7]` (42_serializer R114). -/
def onTime (v : Byte) : Nat := v.toNat + (v.getLsbD 7).toNat

/-- The plane on the outputs as a function of the counter, after the first commit (40_scheduler R76). -/
def planeOf (cnt : Byte) : Nat :=
  if cnt = 0x00#8 then 7 else ((List.range 8).filter fun i => cnt.getLsbD i).getLastD 0

end Sys2Proof.Machine
end

