-- ==== Sys2Proof/Safety.lean ====
section
/-! DEFINITION. What a good state and a good trace are, in the spec's terms: the invariants that statements rest on,
and the two contexts of spec/60_exceptions.md R145. -/

namespace Sys2Proof.Safety

open Sys2Proof.Config Sys2Proof.Machine

/-- No fault is recorded and `l` is the next event: the first line of the script, or the default one. -/
def NextIs (s : State) (l : Line) : Prop := s.fault = none ∧ s.nextLine = l

/-- The store is in canonical form, which is the model's choice (log 3), and lists no address outside it (20_memory
R39). -/
def StoreInv (s : State) : Prop :=
  s.store.wf = true ∧ s.store.within s.params.storeBytes = true

/-- The number of frame bytes the pass in progress has handed over: whole channels, and eight sectors each. -/
def flushedBytes (s : State) : Nat :=
  channelIndex s.rs.ch * s.params.chBytes + (s.params.lastSector - s.rs.sec) / 8

/-- Where a trace stands in the grammar of 42_serializer R111. -/
inductive TraceState where
  /-- No bracket open, the latch low. -/
  | low
  /-- Inside a bracket, after `n` bytes. -/
  | inside (n : Nat)
  /-- The bracket is closed, the latch not yet asserted. -/
  | closed
  /-- No bracket open, the latch asserted. -/
  | high
  deriving DecidableEq, Repr

/-- One event of the grammar of 42_serializer R111, for frames of `frameBytes` bytes; `none` breaks it. -/
def TraceState.next (frameBytes : Nat) : TraceState → Event → Option TraceState
  | .low, .txnBegin => some (.inside 0)
  | .inside n, .shift _ => some (.inside (n + 1))
  | .inside n, .txnEnd => if n = frameBytes then some .closed else none
  | .closed, .latchRise => some .high
  | .high, .latchFall => some .low
  | _, _ => none

/-- A whole trace, from the state after reset. -/
def traceState (frameBytes : Nat) (trace : List (Nat × Event)) : Option TraceState :=
  trace.foldl (fun st e => st.bind fun x => x.next frameBytes e.2) (some .low)

/-- Where the trace must stand in a state. -/
def expectedTrace (s : State) : TraceState :=
  if s.busy then .inside (flushedBytes s) else if s.latch then .high else .low

/-- The sequencer of a pass in progress: one-hot mask, equal to the counter (40_scheduler R73); a bit for every sector
of the byte that has been passed (41_render R90); the latch low (42_serializer R109). -/
def BusyInv (s : State) : Prop :=
  popcount s.rs.mask = 1 ∧ s.rs.mask = s.cnt ∧ s.rs.nacc.toNat = (s.params.lastSector - s.rs.sec) % 8 ∧
    s.latch = false

/-- The positions of the byte being assembled that are not yet filled are 0 (41_render R89: "On entry `rs.nacc` is 0
to 7 and the positions not yet filled are 0"). -/
def UnfilledZero (s : State) : Prop :=
  match s.params.partialAlign with
  | .left => ∀ i, i < 8 - s.rs.nacc.toNat → s.rs.acc.getLsbD i = false
  | .right => ∀ i, s.rs.nacc.toNat ≤ i → s.rs.acc.getLsbD i = false

/-- What holds of the sequencer, the outputs and the trace between any two steps (10_state R15, R20; 42_serializer R111;
70_reset_and_hazards R175). That `sck` is low there is the model's choice (log 17), and the two stages are those of the
spec's own reference chain (log 22). -/
def PassInv (s : State) : Prop :=
  s.rs.sec ≤ s.params.lastSector ∧ s.rs.nacc.toNat ≤ 7 ∧ UnfilledZero s ∧ (s.busy = true → BusyInv s) ∧
    s.txn = s.busy ∧ s.sck = false ∧
    s.chain.sh.length = s.params.frameBits ∧ s.chain.ho.length = s.params.frameBits ∧
    traceState s.params.frameBytes s.out = some (expectedTrace s)

/-- In a run without a fault the counter counts the ticks, from its reset value (40_scheduler R75,
70_reset_and_hazards R166). -/
def ScheduleInv (s : State) : Prop :=
  s.fault = none → s.cnt = s.params.cntReset + BitVec.ofNat 8 s.t

/-- A status byte the described flow sends (30_encoding R59). -/
def sentStatus (b : Byte) : Bool := b == 0xFF#8 || b == 0xE0#8 || b == 0xE1#8

/-- The handler inside a data read has bytes still to come, no read began and no byte came later than now, and only
statuses of the described flow have been sent (43_store_write R127, R128, 30_encoding R60). -/
def HandlerInv (s : State) : Prop :=
  (∀ len k, s.handler.phase = .data len k → k < len.toNat) ∧ s.handler.began ≤ s.handler.now ∧
    (s.handler.rx.all fun b => b.time ≤ s.handler.now) = true ∧ s.handler.tx.all sentStatus = true

/-- The lines of the periodic context: the tick and the pass (60_exceptions R145). -/
def periodicLine : Line → Bool
  | .tick | .tick0 | .rstep => true
  | _ => false

/-- The lines of the polled context and of what reaches it: the writer and the Protocol Handler (60_exceptions
R145). -/
def polledLine : Line → Bool
  | .wr _ _ | .setColors _ | .rx _ | .elapse _ | .poll => true
  | _ => false

/-- A read of the handler that goes on with the bytes that came before `bound` writes a data byte: of the burst in
progress, or of the frame it finds (43_store_write R121, R127). -/
def readWrites (bound : Nat) (s : State) : Bool :=
  match s.handler.phase with
  | .data len k => !(s.readable bound (len.toNat - k)).isEmpty
  | phase =>
    match decodeFrame (phase.header ++ s.waiting) with
    | .ok (.setColors _ data, _) => !data.isEmpty
    | _ => false

/-- The next event performs a `WR`: a `WR` line, a `SETCOLORS` line with data, or a move of the handler that writes a
data byte (30_encoding R62, 43_store_write R121). -/
def nextWrites (s : State) : Bool :=
  match s.nextLine with
  | .wr _ _ => true
  | .setColors data => !data.isEmpty
  | .poll =>
    match s.timing with
    | .inTime => readWrites s.deadline s
    | .tie => !s.nextFree && readWrites (s.deadline + 1) s
    | .late => false
  | _ => false

/-- The order of reading and emission: `(ch, sec)` is followed by the sector below, or by the bottom sector of the next
channel, or by nothing (41_render R86, R87). -/
def nextPair (p : Params) (ch : Channel) (sec : Nat) : Option (Channel × Nat) :=
  match sec, ch with
  | n + 1, ch => some (ch, n)
  | 0, .blue => some (.green, p.lastSector)
  | 0, .green => some (.red, p.lastSector)
  | 0, .red => none

/-- The byte being assembled with the bit of the current sector and channel packed in: what a micro-step that flushes
hands over (41_render R88, R89). -/
def packedByte (s : State) : Byte :=
  packBit s.params.partialAlign (s.store.read (channelAddr s.params s.rs.sec s.rs.ch) &&& s.rs.mask != 0x00#8)
    s.rs.acc s.rs.nacc.toNat

/-- The shift stage after the eight bits of `b`: bit 0 nearest to the block, the oldest bits lost (42_serializer R106,
R107, R112). -/
def shiftedStage (b : Byte) (sh : List Bool) : List Bool := ((bitsMsbFirst b).reverse ++ sh).take sh.length

/-- Every output of the chain is the bit of the current plane of its sector and channel (40_scheduler R76, 42_serializer
R113, R114). -/
def ShowsPlane (s : State) : Prop :=
  ∀ sec ch, sec < s.params.numSectors →
    s.chain.ho[chainPosition s.params sec ch]? =
      some ((s.store.read (channelAddr s.params sec ch)).getLsbD (planeOf s.cnt))

/-- The instructions of the counter decode (30_encoding R51). -/
def isRender : Instr → Bool
  | .renderP0 | .renderP1 | .renderP2 | .renderP3 | .renderP4 | .renderP5 | .renderP6 | .renderP7 => true
  | _ => false

/-- The mask of `RENDER.Pk` (41_render R96 to R103); 0 for the other instructions. -/
def renderMask : Instr → Byte
  | .renderP0 => 0x01#8
  | .renderP1 => 0x02#8
  | .renderP2 => 0x04#8
  | .renderP3 => 0x08#8
  | .renderP4 => 0x10#8
  | .renderP5 => 0x20#8
  | .renderP6 => 0x40#8
  | .renderP7 => 0x80#8
  | _ => 0x00#8

end Sys2Proof.Safety
end

