-- ==== Sys2Proof/Certificates/Slice0/Obligations.lean ====
section
/-! DEFINITION. The statements for the provers, each with the rule of spec/ it formalises. -/

open Sys2Proof Sys2Proof.Config Sys2Proof.Machine Sys2Proof.Safety

/-! ## Encoding -/

/-- Every well-formed instruction is read back from its own bytes, with every operand (30_encoding R51, R58). -/
def Obligations.EncodeThenDecode : Prop :=
  ∀ i : Instr, i.wellFormed = true → decode i.format (encode i) = .ok (i, [])

/-- What the decoders read is well formed, and its encoding followed by what they leave is what was there
(30_encoding R51, R58): no bit is dropped and no two byte strings are confused. -/
def Obligations.DecodeThenEncode : Prop :=
  ∀ f bytes i rest, decode f bytes = .ok (i, rest) →
    i.wellFormed = true ∧ i.format = f ∧ encode i ++ rest = bytes

/-- Bytes are no instruction only where the byte the handler needs next is not there (30_encoding R58, R60: every
header value has an operation; the counter value is always one). -/
def Obligations.OnlyMissingBytesFailToDecode : Prop :=
  ∀ f bytes e, decode f bytes = .error e →
    (bytes = [] ∧ e = .noInput) ∨
    (f = .pframe ∧ bytes = [0xFF#8] ∧ e = .noAction) ∨
    (f = .pframe ∧ bytes = [0xFF#8, 0xA0#8] ∧ e = .noLength)

/-- Words written out from 30_encoding R51, R58 and 95_test_vectors V14 decode to what they stand for. The Length 0
of the `SETCOLORS` header is the model's: the table word has no Length byte, and 0 is appended to it (log 16). -/
def Obligations.SampleWordsDecode : Prop :=
  decodeTableWord 8 0x01 = some .renderP0 ∧ decodeTableWord 8 0x10 = some .renderP4 ∧
  decodeTableWord 8 0x80 = some .renderP7 ∧ decodeTableWord 8 0x00 = some (.idle 0x00#8) ∧
  decodeTableWord 8 0x03 = some (.idle 0x03#8) ∧ decodeTableWord 8 0xFF = some (.idle 0xFF#8) ∧
  decodeTableWord 16 0xFFA0 = some (.setColors 0x00#8 []) ∧ decodeTableWord 16 0xFF55 = some (.unknown 0x55#8) ∧
  decodeTableWord 16 0xFEA0 = some (.resync 0xFE#8)

/-- `POW2` (40_scheduler R72): `fire` exactly on the eight powers of two, never on 0, and the bit-trick form agrees. -/
def Obligations.FireOnPowersOfTwo : Prop :=
  ∀ x : Byte,
    (fire x = true ↔ popcount x = 1) ∧
    (fire x = true ↔ x ∈ [0x01#8, 0x02#8, 0x04#8, 0x08#8, 0x10#8, 0x20#8, 0x40#8, 0x80#8]) ∧
    (fire x = true ↔ x ≠ 0x00#8 ∧ x &&& (x - 1#8) = 0x00#8)

/-- The counter decode (30_encoding R51, R52): where the value has one bit set, the `RENDER.Pk` whose mask is the value
itself; otherwise `IDLE`. -/
def Obligations.CounterDecode : Prop :=
  ∀ x : Byte,
    (popcount x = 1 → isRender (decodeCnt x) = true ∧ renderMask (decodeCnt x) = x) ∧
    (popcount x ≠ 1 → decodeCnt x = .idle x)

/-! ## The step -/

/-- A tick runs the instruction the new counter value decodes to (40_scheduler R70): on an idle machine `TICK0` is
`exec` of it, after the tick is counted, the latch cleared and the counter incremented. -/
def Obligations.TickRunsDecodedCounter : Prop :=
  ∀ (s : State), NextIs s .tick0 → s.busy = false →
    step s = exec (decodeCnt (s.cnt + 1#8))
      { s with
        script := s.script.tail, t := s.t + 1, latch := false, cnt := s.cnt + 1#8,
        out := s.out ++ if s.latch then [(s.t + 1, .latchFall)] else [] }

/-- A move of the handler runs the frame it finds (43_store_write R127): where the read in progress is in time, the
header bytes it has read and the bytes that wait decode to `i`, and the step is `exec i` with the bytes of `i` taken
from the queue. That one move reads as far as the bytes go is the model's choice (log 13). -/
def Obligations.PollRunsDecodedFrame : Prop :=
  ∀ (s : State) (i : Instr) (rest : List Byte),
    NextIs s .poll → s.timing = .inTime → (∀ len k, s.handler.phase ≠ .data len k) →
    decode .pframe (s.handler.phase.header ++ s.waiting) = .ok (i, rest) →
    step s = exec i
      { s with
        script := s.script.tail,
        handler := { s.handler with rx := s.handler.rx.drop (s.handler.rx.length - rest.length) } }

/-- A placed table word is what the next step runs, from any state (00_scope section 1; the placement is the model's,
log 16). -/
def Obligations.PlacedWordRunsNext : Prop :=
  ∀ (s : State) (nbits w : Nat) (i : Instr), decodeTableWord nbits w = some i →
    ∃ t, step (s.withFetchWord nbits w) = exec i t ∧ t.params = s.params ∧ t.store = s.store ∧ t.fault = none ∧
      (nbits = 8 → t.cnt = BitVec.ofNat 8 w ∧ t.busy = false ∧ t.latch = false) ∧
      (nbits = 16 → t.handler.phase = .idle ∧ t.cnt = s.cnt ∧ t.rs = s.rs)

/-- `INC` (40_scheduler R71): the counter goes up by one, modulo 256, on every tick that finds no pass in progress, and
apart from that only reset writes it. -/
def Obligations.CounterWrites : Prop :=
  ∀ (s s' : State), step s = .next s' →
    s'.cnt.toNat =
      if s.nextLine = .reset then s.params.cntReset.toNat
      else if (s.nextLine = .tick ∨ s.nextLine = .tick0) ∧ s.busy = false then (s.cnt.toNat + 1) % 256
      else s.cnt.toNat

/-- An idle tick, whole (40_scheduler R70, R74): the tick is counted, the latch cleared (with its event if it was
high), the counter incremented, and nothing more happens. -/
def Obligations.IdleTick : Prop :=
  ∀ (s : State) (l : Line), NextIs s l → l = .tick ∨ l = .tick0 → s.busy = false → popcount (s.cnt + 1#8) ≠ 1 →
    step s = .next
      { s with
        script := s.script.tail, t := s.t + 1, latch := false, cnt := s.cnt + 1#8,
        out := s.out ++ if s.latch then [(s.t + 1, .latchFall)] else [] }

/-- `IDLE` (40_scheduler R74): nothing changes, in any state; its encodings are the values whose popcount is not 1, and
they are 248 of the 256. -/
def Obligations.IdleDoesNothing : Prop :=
  (∀ (x : Byte) (s : State), exec (.idle x) s = .next s) ∧
  (∀ x : Byte, decodeCnt x = .idle x ↔ popcount x ≠ 1) ∧
  ((List.range 256).filter fun n => popcount (BitVec.ofNat 8 n) != 1).length = 248

/-- A tick while a pass is in progress (40_scheduler R70, 60_exceptions R142): `RenderOverrun` is recorded with the
counter before the increment and the mask of the pass, and nothing but the tick count changes. That the fault leaves a
next state, from which only `RESET` goes on, is the model's reading (log 7). -/
def Obligations.TickDuringPassOverruns : Prop :=
  ∀ (s : State) (l : Line), NextIs s l → l = .tick ∨ l = .tick0 → s.busy = true →
    step s = .next
      { s with script := s.script.tail, t := s.t + 1, fault := some (.renderOverrun s.cnt s.rs.mask) }

/-- A recorded fault stays recorded (60_exceptions R143): a step that goes on from one is a `RESET`, which clears it;
and a second fault does not replace the first. That every other step stops is the model's reading of D20 (log 7). -/
def Obligations.FaultIsSticky : Prop :=
  (∀ (s s' : State) (f : Fault), s.fault = some f → step s = .next s' → s.nextLine = .reset) ∧
  (∀ (s : State), s.nextLine = .reset → ∃ s', step s = .next s' ∧ s'.fault = none) ∧
  (∀ (s : State) (f g : Fault), s.fault = some f → (s.raise g).fault = some f) ∧
  (∀ (s : State) (g : Fault), s.fault = none → (s.raise g).fault = some g)

/-- After a fault no event but `RESET` has a meaning (92_eei_decisions D20): the machine stops with the fault,
which is the model's form of it (log 7). -/
def Obligations.StopsAfterFault : Prop :=
  ∀ (s : State) (f : Fault), s.fault = some f → s.nextLine ≠ .reset → step s = .fault f

/-- The schedule (40_scheduler R75, 70_reset_and_hazards R166): as long as no fault is recorded the counter is its reset
value plus the number of ticks, modulo 256, and every step keeps it so. -/
def Obligations.ScheduleKept : Prop :=
  ∀ (s s' : State), ScheduleInv s → step s = .next s' → ScheduleInv s'

/-- A pass is started by a tick and by nothing else (40_scheduler R73, R78): not by a store write, the end of a burst,
reset, or the end of another pass. A step after which a pass is in progress that was not before, and a step that opens
a bracket (with the line `TICK` a whole pass), is a tick on an idle machine, and the new counter value, which has
one bit set, is the mask. -/
def Obligations.OnlyTicksStartPasses : Prop :=
  ∀ (s s' : State), step s = .next s' →
    (s.busy = false ∧ s'.busy = true) ∨ (∃ more n, s'.out = s.out ++ more ∧ (n, Event.txnBegin) ∈ more) →
    (s.nextLine = .tick ∨ s.nextLine = .tick0) ∧ s.busy = false ∧
      s'.rs.mask = s'.cnt ∧ s'.cnt = s.cnt + 1#8 ∧ popcount s'.cnt = 1

/-! ## The render pass -/

/-- `RENDER.Pk` on an idle machine (40_scheduler R73, 41_render R96 to R103): the pass starts with the form's mask, and
nothing else changes, for both values of `PASS_ATOMIC`. -/
def Obligations.RenderStartsPass : Prop :=
  ∀ (i : Instr) (s : State), isRender i = true → s.busy = false →
    exec i s = .next
      { s with
        rs := { phase := .busy, mask := renderMask i, ch := .blue, sec := s.params.numSectors - 1,
                acc := 0x00#8, nacc := 0#4 },
        txn := true, out := s.out ++ [(s.t, .txnBegin)] }

/-- `RENDER.Pk` on an idle machine and the micro-steps of its pass (41_render R85, R92, 42_serializer R111): the
events are those of the frame that 30_encoding R55 computes from the store and the mask, stamped with the current
tick; the pass ends Idle, the latch asserted, the bracket closed. Nothing but the sequencer, the outputs, the chain
and the trace changes. That `sck` is low between events is the model's choice (log 17). -/
def Obligations.RenderWholePass : Prop :=
  ∀ (i : Instr) (s : State), isRender i = true → s.busy = false →
    ∃ s', andThen (exec i s) State.finishPass = .next s' ∧
      s'.out = s.out ++ (passEvents (frame s.params s.store (renderMask i))).map (fun e => (s.t, e)) ∧
      s'.latch = true ∧ s'.txn = false ∧ s'.busy = false ∧
      s' = { s with
        rs := s'.rs, out := s'.out, latch := true, sdo := s'.sdo, sck := false, txn := false, chain := s'.chain }

/-- A rendering `TICK` with all its micro-steps (30_encoding R62, 42_serializer R111): the latch event if the latch was
high, then the events of the pass, all stamped with the new tick number. That `sck` is low between events is the model's
choice (log 17). -/
def Obligations.RenderingTick : Prop :=
  ∀ (s : State), NextIs s .tick → s.busy = false → popcount (s.cnt + 1#8) = 1 →
    ∃ s', step s = .next s' ∧
      s'.out = s.out ++ (if s.latch then [(s.t + 1, .latchFall)] else []) ++
        (passEvents (frame s.params s.store (s.cnt + 1#8))).map (fun e => (s.t + 1, e)) ∧
      s'.busy = false ∧
      s' = { s with
        script := s.script.tail, t := s.t + 1, cnt := s.cnt + 1#8, rs := s'.rs, out := s'.out, latch := true,
        sdo := s'.sdo, sck := false, txn := false, chain := s'.chain }

/-- `RENDER` called other than through the gate (41_render R95, 60_exceptions R142): `RENDER.Pk` while a pass is in
progress records `RenderOverrun`, `RENDER(m)` with a mask that is not one-hot records `BadMask(m)`, and neither does
anything else; and no step of the machine ever records `BadMask`. The order of the two checks is the model's (log 20).
-/
def Obligations.RenderOutsideTheGate : Prop :=
  (∀ (i : Instr) (s : State), isRender i = true → s.busy = true →
    exec i s = .next { s with fault := some (s.fault.getD (.renderOverrun s.cnt s.rs.mask)) }) ∧
  (∀ (m : Byte) (s : State),
     popcount m ≠ 1 → s.render m = .next { s with fault := some (s.fault.getD (.badMask m)) }) ∧
  (∀ (s s' : State) (m : Byte), step s = .next s' → s.fault ≠ some (.badMask m) → s'.fault ≠ some (.badMask m))

/-- A micro-step that flushes nothing (41_render R88, R89, R91): the byte read at `ADDR(sec, ch)` is tested, its bit
packed, and the sector index counts down. -/
def Obligations.MicroStepPacks : Prop :=
  ∀ (s : State),
    NextIs s .rstep → s.busy = true → s.rs.sec < s.params.numSectors → s.rs.nacc ≠ 7#4 → s.rs.sec ≠ 0 →
    step s = .next
      { s with
        script := s.script.tail,
        rs := { s.rs with acc := packedByte s, nacc := s.rs.nacc + 1#4, sec := s.rs.sec - 1 } }

/-- A micro-step that flushes and is not the last (41_render R90, R91, 42_serializer R106, R107): when eight bits are
there or the sector is 0, one `SHIFT` of the assembled byte, whose eight bits enter the shift stage of the chain (the
spec's own reference model, log 22), an empty accumulator, and the next pair of channel and sector. The levels of
`sdo` and `sck` after it are the model's choice (log 17). -/
def Obligations.MicroStepFlushes : Prop :=
  ∀ (s : State) (ch : Channel) (sec : Nat),
    NextIs s .rstep → s.busy = true → s.rs.sec < s.params.numSectors → s.rs.nacc = 7#4 ∨ s.rs.sec = 0 →
    nextPair s.params s.rs.ch s.rs.sec = some (ch, sec) →
    step s = .next
      { s with
        script := s.script.tail, rs := { s.rs with acc := 0x00#8, nacc := 0#4, ch := ch, sec := sec },
        out := s.out ++ [(s.t, .shift (packedByte s))], sdo := (packedByte s).getLsbD 0, sck := false,
        chain := { s.chain with sh := shiftedStage (packedByte s) s.chain.sh } }

/-- The last micro-step (41_render R91, R93, 42_serializer R106 to R109, R112): the last byte is shifted out,
`TXN_END`, then the latch is asserted and the chain's outputs take what has been shifted in (the spec's own reference
model, log 22); the machine is Idle. The levels of `sdo` and `sck` after it are the model's choice (log 17). -/
def Obligations.LastMicroStepCommits : Prop :=
  ∀ (s : State),
    NextIs s .rstep → s.busy = true → s.rs.sec < s.params.numSectors → nextPair s.params s.rs.ch s.rs.sec = none →
    step s = .next
      { s with
        script := s.script.tail, rs := { s.rs with acc := 0x00#8, nacc := 0#4, phase := .idle }, latch := true,
        txn := false, sdo := (packedByte s).getLsbD 0, sck := false,
        out := s.out ++ [(s.t, .shift (packedByte s)), (s.t, .txnEnd), (s.t, .latchRise)],
        chain := { sh := shiftedStage (packedByte s) s.chain.sh, ho := shiftedStage (packedByte s) s.chain.sh } }

/-- `RSTEP` while Idle does not exist (41_render R91, 95_test_vectors V12): refused by name, the model's form of it
(log 9). -/
def Obligations.MicroStepNeedsBusy : Prop :=
  ∀ (s : State), NextIs s .rstep → s.busy = false → step s = .refused .rstepNotEnabled

/-- `PACK` bit by bit (41_render R89): with `LEFT` the new bit is at position `7 - nacc` and the others stay, where that
position was 0; with `RIGHT` it is at position 0 and the others move up by one. "After eight bits the two give the same
byte". -/
def Obligations.PackPlacesBit : Prop :=
  (∀ b acc n j, n ≤ 7 → j ≤ 7 →
    (acc.getLsbD (7 - n) = false →
      (packBit .left b acc n).getLsbD j = if j = 7 - n then b else acc.getLsbD j) ∧
    (packBit .right b acc n).getLsbD j = if j = 0 then b else acc.getLsbD (j - 1)) ∧
  ∀ bits : List Bool, bits.length = 8 →
    (bits.zipIdx.foldl (fun acc b => packBit .left b.1 acc b.2) 0x00#8) =
      (bits.zipIdx.foldl (fun acc b => packBit .right b.1 acc b.2) 0x00#8)

/-- Where each sector's bit stands in the frame (30_encoding R54, R55, R56): byte `j` of a channel holds, at the
position of its `i`-th used bit, the bit of sector `N - 1 - 8j - i`, and 0 at every other position. -/
def Obligations.FrameByteBits : Prop :=
  ∀ p store m ch j, j < p.chBytes →
    (∀ i, i < usedBits p j →
      (channelByte p store m ch j).getLsbD (bitPosition p.partialAlign (usedBits p j) i) =
        sectorBit p store m (p.numSectors - 1 - 8 * j - i) ch) ∧
    (∀ q, (∀ i, i < usedBits p j → bitPosition p.partialAlign (usedBits p j) i ≠ q) →
      (channelByte p store m ch j).getLsbD q = false)

/-- Where each sector's bit stands in the serial stream (30_encoding R57), and how long the stream is. -/
def Obligations.StreamPlacesSectors : Prop :=
  ∀ p store m s ch, s < p.numSectors →
    (frameBitStream (frame p store m)).length = p.frameBits ∧
      (frameBitStream (frame p store m))[streamIndex p s ch]? = some (sectorBit p store m s ch)

/-- Where each sector lands on the chain (42_serializer R112, R113, the spec's own reference model, log 22): after a
`TICK` that renders, with all its micro-steps, into a chain of `FRAME_BITS` stages, the output of sector `s`, channel
`ch` is at `chainPosition`, and every other output is 0, for both values of `PASS_ATOMIC`. -/
def Obligations.ChainPlacesSectors : Prop :=
  ∀ (s : State), NextIs s .tick → s.busy = false → popcount (s.cnt + 1#8) = 1 →
    s.chain.sh.length = s.params.frameBits →
    ∃ s', step s = .next s' ∧
      (∀ sec ch, sec < s.params.numSectors →
        s'.chain.ho[chainPosition s.params sec ch]? =
          some (sectorBit s.params s.store (s.cnt + 1#8) sec ch)) ∧
      (∀ q, q < s.params.frameBits →
        (∀ sec ch, sec < s.params.numSectors → chainPosition s.params sec ch ≠ q) →
        s'.chain.ho[q]? = some false)

/-- A pass depends on the channel bytes and the mask alone (41_render R94, 10_state R12): padding bytes and whatever the
sequencer held before make no difference to any output, for both values of `PASS_ATOMIC`. -/
def Obligations.PassIgnoresPaddingAndHistory : Prop :=
  ∀ (i : Instr) (s : State) (m : Memory) (rs : Sequencer),
    isRender i = true → s.busy = false → rs.phase = .idle →
    (∀ sec ch, sec < s.params.numSectors →
      m.read (channelAddr s.params sec ch) = s.store.read (channelAddr s.params sec ch)) →
    ∃ s', andThen (exec i s) State.finishPass = .next s' ∧
      andThen (exec i { s with store := m, rs := rs }) State.finishPass = .next { s' with store := m }

/-- `SHIFT(b)` (42_serializer R106, R107, R112): one event, and the eight bits of `b` into the chain, bit 7 first, so
that bit 0 is nearest to the block; of the rest only the levels of `sdo` and `sck` change. Those levels after the
shift are the model's choice (log 17), and the shift stage is the spec's own reference model (log 22). -/
def Obligations.ShiftSendsEightBits : Prop :=
  ∀ (b : Byte) (s : State), s.shiftByte b =
    { s with
      out := s.out ++ [(s.t, .shift b)], sdo := b.getLsbD 0, sck := false,
      chain := { s.chain with sh := shiftedStage b s.chain.sh } }

/-- The sequencer, the outputs and the trace between any two steps (10_state R15, R20, 41_render R89, R90, R95,
42_serializer R106, R111): every step keeps them consistent. So brackets hold exactly `FRAME_BYTES` bytes, and
`LATCH_RISE` and `LATCH_FALL` alternate. That `sck` is low between events is the model's choice (log 17), and the
chain whose stages keep `FRAME_BITS` bits is the spec's own reference model (log 22). -/
def Obligations.PassInvariantKept : Prop :=
  ∀ (s s' : State), PassInv s → step s = .next s' → PassInv s'

/-- No address outside the store is ever read (20_memory R32): in a state that meets the invariant the model's own guard
(log 8) does not stop a step. -/
def Obligations.NoReadOutsideStore : Prop :=
  ∀ (s : State) (a : Nat), PassInv s → s.fault = none → step s ≠ .fault (.readOutsideStore a)

/-- The machine never stops by itself (60_exceptions R137, R138, 43_store_write R120): in a state that meets the
invariant, with no fault recorded, every event gives a next state, but an `RSTEP` that does not exist and an event
that writes a byte where writes are not admitted. Writes are always admitted where `PASS_ATOMIC` is false, and outside
a pass. Between the first and the last read of an atomic pass (20_memory R47) every event that writes a byte is
refused, be it a `WR` line, a `SETCOLORS` line with data or a move of the handler, and no step but `RESET` changes the
store. The refusal is the model's form of a schedule that is not admitted (log 10). -/
def Obligations.EveryEventIsTaken : Prop :=
  (∀ (s : State), PassInv s → s.fault = none → (s.nextLine = .rstep → s.busy = true) →
    (nextWrites s = true → s.writesBarred = false) → ∃ s', step s = .next s') ∧
  (∀ (s : State), s.params.passAtomic = false ∨ s.busy = false → s.writesBarred = false) ∧
  (∀ (s : State) (a : Nat) (v : Byte), NextIs s (.wr a v) → s.params.passAtomic = true → s.busy = true →
    s.rs.sec ≤ s.params.lastSector → s.rs.ch ≠ .blue ∨ s.rs.sec ≠ s.params.lastSector →
    step s = .refused .writeInsidePass) ∧
  (∀ (s : State), s.fault = none → nextWrites s = true → s.writesBarred = true →
    step s = .refused .writeInsidePass) ∧
  (∀ (s s' : State), s.writesBarred = true → step s = .next s' → s.nextLine = .reset ∨ s'.store = s.store)

/-! ## The store -/

/-- The addresses of the bytes of a sector (20_memory R31, R39): `4 * s` plus the offsets of the two layouts; those of
channels are in the store, all different, and never a padding byte. -/
def Obligations.ChannelAddresses : Prop :=
  (∀ p s ch, channelAddr p s ch = 4 * s +
    match p.storeLayout, ch with
    | .doc, .red => 1
    | .doc, .green => 2
    | .doc, .blue => 3
    | .le, .blue => 0
    | .le, .green => 1
    | .le, .red => 2) ∧
  (∀ p s, paddingAddr p s = 4 * s + if p.storeLayout = .doc then 0 else 3) ∧
  ∀ p s ch s2 ch2, s < p.numSectors → s2 < p.numSectors →
    channelAddr p s ch < p.storeBytes ∧ channelAddr p s ch ≠ paddingAddr p s2 ∧
      (channelAddr p s ch = channelAddr p s2 ch2 → s = s2 ∧ ch = ch2)

/-- `WR(a, v)` where writes are admitted (20_memory R33): in the store, that byte takes `v` and nothing else changes;
outside it, `StoreOverrun` is raised and the store is unchanged; that the fault leaves a next state, from which only
`RESET` goes on, is the model's reading (log 7). The worked example: `WR(3, 0x80)` makes the Blue channel of sector 0
equal 0x80 under `DOC`. -/
def Obligations.WriteByte : Prop :=
  (∀ (s : State) (a : Nat) (v : Byte),
    StoreInv s → NextIs s (.wr a v) → s.writesBarred = false → a < s.params.storeBytes →
    ∃ m, step s = .next { s with script := s.script.tail, store := m } ∧
      ∀ b, m.read b = if b = a then v else s.store.read b) ∧
  (∀ (s : State) (a : Nat) (v : Byte),
    NextIs s (.wr a v) → s.writesBarred = false → s.params.storeBytes ≤ a →
    step s = .next { s with script := s.script.tail, fault := some (.storeOverrun a v) }) ∧
  (∀ (s : State), StoreInv s → s.params.storeLayout = .doc →
    (s.write 3 0x80#8).readByte (channelAddr s.params 0 .blue) = some 0x80#8)

/-- The script line `SETCOLORS b0 b1 ...` where writes are admitted (30_encoding R62, 20_memory R33): `WR 0, b0`;
`WR 1, b1`; ... with nothing in between. The data are the first bytes of the store, and nothing else changes: no status
byte is sent. Past the end of the store, every byte of it is written and the first write outside is recorded as
`StoreOverrun`, which ends the line (log 7). -/
def Obligations.ScriptSetColorsWrites : Prop :=
  (∀ (s : State) (data : List Byte),
    StoreInv s → NextIs s (.setColors data) → s.writesBarred = false ∨ data = [] → data.length ≤ s.params.storeBytes →
    ∃ m, step s = .next { s with script := s.script.tail, store := m } ∧
      ∀ a, m.read a = if a < data.length then data.getD a 0x00#8 else s.store.read a) ∧
  (∀ (s : State) (data : List Byte),
    StoreInv s → NextIs s (.setColors data) → s.writesBarred = false → s.params.storeBytes < data.length →
    ∃ m, step s = .next
        { s with
          script := s.script.tail, store := m,
          fault := some (.storeOverrun s.params.storeBytes (data.getD s.params.storeBytes 0x00#8)) } ∧
      ∀ a, m.read a = if a < s.params.storeBytes then data.getD a 0x00#8 else s.store.read a)

/-- "A write of the value a byte already holds changes nothing" (20_memory R38), and a read gives the byte of the store,
for every address in it (R32). -/
def Obligations.RewriteChangesNothing : Prop :=
  ∀ (s : State) (a : Nat), StoreInv s → a < s.params.storeBytes →
    s.readByte a = some (s.store.read a) ∧ s.write a (s.store.read a) = s

/-- The store stays inside its bounds (20_memory R30, R39), and in canonical form, which is the model's choice (log
3). -/
def Obligations.StoreInvariantKept : Prop :=
  ∀ (s s' : State), StoreInv s → step s = .next s' → StoreInv s'

/-- The writer is the sole mutator of the store (20_memory R48): no event of the renderer, and no arrival or passing of
time, changes any byte of it. -/
def Obligations.OnlyWriterChangesStore : Prop :=
  ∀ (s s' : State), step s = .next s' → s.store ≠ s'.store →
    s.nextLine = .reset ∨ s.nextLine = .poll ∨ (∃ a v, s.nextLine = .wr a v) ∨ ∃ data, s.nextLine = .setColors data

/-- A write to another byte than the one a micro-step reads commutes with it (60_exceptions R139). -/
def Obligations.WriteCommutesWithMicroStep : Prop :=
  ∀ (s : State) (a : Nat) (v : Byte), s.busy = true → s.rs.sec < s.params.numSectors → a < s.params.storeBytes →
    a ≠ channelAddr s.params s.rs.sec s.rs.ch →
    ∃ s', s.microStep = .next s' ∧ (s.write a v).microStep = .next (s'.write a v)

/-- A write in the same instant as a tick commutes with it, since `TICK` reads no byte (60_exceptions R139). -/
def Obligations.WriteCommutesWithTick : Prop :=
  ∀ (s : State) (a : Nat) (v : Byte), s.fault = none → s.busy = false → a < s.params.storeBytes →
    ∃ s', s.tick0With exec = .next s' ∧ (s.write a v).tick0With exec = .next (s'.write a v)

/-! ## The Protocol Handler -/

/-- `SETCOLORS` with all its data and `Length <= STORE_BYTES` (43_store_write R121, R127): the first Length bytes of the
store are the data, every other byte is unchanged, the input is drained, one SUCCESS is sent, and nothing else
changes; with no data byte, inside an atomic pass as well. -/
def Obligations.SetColorsWritesStore : Prop :=
  ∀ (len : Byte) (data : List Byte) (s : State),
    StoreInv s → data.length = len.toNat → len.toNat ≤ s.params.storeBytes → s.fault = none →
    s.writesBarred = false ∨ data = [] →
    ∃ m, exec (.setColors len data) s = .next
        { s with
          store := m,
          handler :=
            { s.handler with
              phase := .idle, rx := [], tx := s.handler.tx ++ [0xFF#8], began := s.handler.now } } ∧
      ∀ a, m.read a = if a < data.length then data.getD a 0x00#8 else s.store.read a

/-- `SETCOLORS` whose data has arrived in part (43_store_write R121, R122): the prefix is written, no status is sent
yet, and the handler waits inside the data read; with no data byte, inside an atomic pass as well. -/
def Obligations.SetColorsWritesPrefix : Prop :=
  ∀ (len : Byte) (data : List Byte) (s : State),
    StoreInv s → data.length < len.toNat → data.length ≤ s.params.storeBytes → s.fault = none →
    s.writesBarred = false ∨ data = [] →
    ∃ m, exec (.setColors len data) s = .next
        { s with
          store := m,
          handler := { s.handler with phase := .data len data.length, began := s.handler.now } } ∧
      ∀ a, m.read a = if a < data.length then data.getD a 0x00#8 else s.store.read a

/-- `SETCOLORS` that runs past the store (43_store_write R123, 20_memory R39): every byte of the store is written, the
first write past its end is recorded as `StoreOverrun`, no status is sent. That the run ends there is the spec's
refusal to say what the memory next to the store does (log 7). -/
def Obligations.SetColorsOverruns : Prop :=
  ∀ (len : Byte) (data : List Byte) (s : State),
    StoreInv s → data.length ≤ len.toNat → s.params.storeBytes < data.length → s.fault = none →
    s.writesBarred = false →
    ∃ m h, exec (.setColors len data) s = .next
        { s with
          store := m, handler := h,
          fault := some (.storeOverrun s.params.storeBytes (data.getD s.params.storeBytes 0x00#8)) } ∧
      h.tx = s.handler.tx ∧
      ∀ a, m.read a = if a < s.params.storeBytes then data.getD a 0x00#8 else s.store.read a

/-- A data read in progress goes on with the bytes that came before its deadline (43_store_write R121, R123, R128):
they are written at the next addresses; the frame ends with SUCCESS when the last has come, and else the read goes on
with the same timer, the later bytes still waiting. Where they run past the store, every byte up to its end is
written, the first write outside is recorded as `StoreOverrun` (log 7), and no status is sent. Where no byte has come,
the read just goes on, inside an atomic pass as well. That one move takes every byte that came in time is the model's
choice (log 13). -/
def Obligations.BurstGoesOn : Prop :=
  ∀ (s : State) (len : Byte) (k : Nat) (came : List Received),
    StoreInv s → NextIs s .poll → s.handler.phase = .data len k → k < len.toNat →
    s.timing = .inTime → came = s.handler.rx.takeWhile (fun b => b.time < s.handler.began + s.params.readTimeout) →
    s.writesBarred = false ∨ came = [] →
    (min len.toNat (k + came.length) ≤ s.params.storeBytes →
      ∃ m, step s = .next
          { s with
            script := s.script.tail, store := m,
            handler :=
              if len.toNat ≤ k + came.length then
                { s.handler with phase := .idle, rx := [], tx := s.handler.tx ++ [0xFF#8] }
              else
                { s.handler with
                  phase := .data len (k + came.length), rx := s.handler.rx.drop came.length } } ∧
        ∀ a, m.read a =
          if k ≤ a ∧ a < len.toNat ∧ a < k + came.length then (came.map Received.byte).getD (a - k) 0x00#8
          else s.store.read a) ∧
    (k ≤ s.params.storeBytes → s.params.storeBytes < min len.toNat (k + came.length) →
      ∃ m h, step s = .next
          { s with
            script := s.script.tail, store := m, handler := h,
            fault := some (.storeOverrun s.params.storeBytes
              ((came.map Received.byte).getD (s.params.storeBytes - k) 0x00#8)) } ∧
        h.tx = s.handler.tx ∧
        ∀ a, m.read a =
          if k ≤ a ∧ a < s.params.storeBytes then (came.map Received.byte).getD (a - k) 0x00#8
          else s.store.read a)

/-- The deadline (43_store_write R122, R127, R128): where the byte that a read needs came later than `READ_TIMEOUT`
after the read began, or has not come and that moment is past, the frame ends with TIMEOUT, and the store keeps what
has been written. At that very moment the frame ends so or the read goes on, for every value of the free choice (log
12), which is drawn once. -/
def Obligations.DeadlineSendsTimeout : Prop :=
  (∀ (s : State),
    NextIs s .poll → s.handler.phase ≠ .idle →
    (∀ b, s.handler.rx.head? = some b → s.handler.began + s.params.readTimeout < b.time) →
    (s.handler.rx = [] → s.handler.began + s.params.readTimeout < s.handler.now) →
    step s = .next
      { s with
        script := s.script.tail,
        handler := { s.handler with phase := .idle, rx := [], tx := s.handler.tx ++ [0xE0#8] } }) ∧
  (∀ (s : State),
    NextIs s .poll → s.handler.phase ≠ .idle →
    (∀ b, s.handler.rx.head? = some b → b.time = s.handler.began + s.params.readTimeout) →
    (s.handler.rx = [] → s.handler.now = s.handler.began + s.params.readTimeout) →
    step s = .next
      { s with
        script := s.script.tail, freeCtr := s.freeCtr + 1,
        handler := { s.handler with phase := .idle, rx := [], tx := s.handler.tx ++ [0xE0#8] } } ∨
    step s = { s with script := s.script.tail, freeCtr := s.freeCtr + 1 }.readOnWith exec
      (s.handler.began + s.params.readTimeout + 1))

/-- The header arrives in parts (43_store_write R127, R128): the handler waits for the byte that is not there, and each
new read starts the timer anew (the form of the moves is the model's, log 13). -/
def Obligations.HandlerWaitsForHeader : Prop :=
  (∀ (s : State), NextIs s .poll → s.handler.phase = .idle → s.waiting = [0xFF#8] →
    step s = .next
      { s with
        script := s.script.tail,
        handler := { s.handler with phase := .action, rx := [], began := s.handler.now } }) ∧
  (∀ (s : State), NextIs s .poll → s.handler.phase = .idle → s.waiting = [0xFF#8, 0xA0#8] →
    step s = .next
      { s with
        script := s.script.tail,
        handler := { s.handler with phase := .length, rx := [], began := s.handler.now } }) ∧
  (∀ (s : State), NextIs s .poll → s.timing = .inTime → s.handler.phase = .action → s.waiting = [0xA0#8] →
    step s = .next
      { s with
        script := s.script.tail,
        handler := { s.handler with phase := .length, rx := [], began := s.handler.now } }) ∧
  (∀ (s : State), NextIs s .poll → s.timing = .inTime → s.handler.rx = [] →
    s.handler.phase = .idle ∨ s.handler.phase = .action ∨ s.handler.phase = .length →
    step s = .next { s with script := s.script.tail })

/-- Sending the same `SetColors` frame twice yields the same store both times (43_store_write R125), whole or in part,
inside the store or past its end, where writes are admitted. -/
def Obligations.BurstIsIdempotent : Prop :=
  ∀ (len : Byte) (data : List Byte) (s : State), StoreInv s → s.writesBarred = false ∨ data = [] →
    ∃ s1 s2, exec (.setColors len data) s = .next s1 ∧ exec (.setColors len data) s1 = .next s2 ∧
      s2.store = s1.store

/-- `UNKNOWN` (43_store_write R127 step 4, 30_encoding R59): the input is drained and 0xE1 sent; nothing is written and
nothing else changes, in any state. -/
def Obligations.UnknownSendsE1 : Prop :=
  ∀ (action : Byte) (s : State), exec (.unknown action) s = .next
    { s with handler := { s.handler with phase := .idle, rx := [], tx := s.handler.tx ++ [0xE1#8] } }

/-- `RESYNC` (43_store_write R127 step 2, 93_implementation_defined U16): no status, no write; the bytes that wait are
kept or drained, for every value of the free choice, which is drawn once. -/
def Obligations.ResyncIsSilent : Prop :=
  ∀ (start : Byte) (s : State), ∃ q, (q = s.handler.rx ∨ q = []) ∧
    exec (.resync start) s = .next
      { s with handler := { s.handler with phase := .idle, rx := q }, freeCtr := s.freeCtr + 1 }

/-- The handler inside a data read has bytes still to come, no read began and no byte came later than now, and every
status sent is 0xFF, 0xE0 or 0xE1 (30_encoding R59, R60: `ERROR` is "never emitted"; 43_store_write R121, R128). -/
def Obligations.HandlerInvariantKept : Prop :=
  ∀ (s s' : State), HandlerInv s → step s = .next s' → HandlerInv s'

/-! ## The contexts, reset, and the whole machine -/

/-- What the polled context and its input may touch (60_exceptions R138, R145): the store, the fault record and the
handler's own state, never `cnt`, `latch`, `rs`, the outputs or the trace. -/
def Obligations.PolledContextFrame : Prop :=
  ∀ (s s' : State), polledLine s.nextLine = true → step s = .next s' →
    s' = { s with
      store := s'.store, fault := s'.fault, handler := s'.handler, script := s.script.tail, freeCtr := s'.freeCtr }

/-- What the periodic context may touch (60_exceptions R145): never the store and never the handler. -/
def Obligations.PeriodicContextFrame : Prop :=
  ∀ (s s' : State), periodicLine s.nextLine = true → step s = .next s' →
    s' = { s with
      cnt := s'.cnt, latch := s'.latch, rs := s'.rs, sdo := s'.sdo, sck := s'.sck, txn := s'.txn, out := s'.out,
      fault := s'.fault, t := s'.t, chain := s'.chain, script := s.script.tail }

/-- Bytes arrive and time passes (43_store_write R127, R128; the lines are the model's, log 6): one more byte waits,
with the present moment, or the clock goes on; nothing else changes. -/
def Obligations.ArrivalAndTime : Prop :=
  (∀ (s : State) (b : Byte), NextIs s (.rx b) →
    step s = .next
      { s with
        script := s.script.tail,
        handler := { s.handler with rx := s.handler.rx ++ [{ byte := b, time := s.handler.now }] } }) ∧
  (∀ (s : State) (n : Nat), NextIs s (.elapse n) →
    step s = .next
      { s with script := s.script.tail, handler := { s.handler with now := s.handler.now + n } })

/-- `RESET` (70_reset_and_hazards R165, 60_exceptions R138, R143): from any state, in the middle of a pass and after a
fault, every element of the block takes its reset value (the counter that of CNT_RESET, decided 0 by D6); the chain
keeps what it holds (log 5), and no event is emitted for the pass that is abandoned. -/
def Obligations.ResetFromAnyState : Prop :=
  ∀ (s : State), s.nextLine = .reset →
    ∃ s', step s = .next s' ∧
      (∀ a, s'.store.read a = 0x00#8) ∧ s'.cnt = s.params.cntReset ∧ s'.latch = false ∧ s'.rs.phase = .idle ∧
      s'.sdo = false ∧ s'.sck = false ∧ s'.txn = false ∧ s'.out = [] ∧ s'.fault = none ∧ s'.t = 0 ∧
      s'.chain = s.chain ∧ s'.params = s.params ∧ s'.script = s.script.tail

/-- The state after reset (10_state R24), for every value of the parameters; and `State.reset` has the decided ones. -/
def Obligations.ResetValues : Prop :=
  (∀ p, (State.resetWith p).params = p ∧ (∀ a, (State.resetWith p).store.read a = 0x00#8) ∧
    (State.resetWith p).cnt = p.cntReset ∧ (State.resetWith p).latch = false ∧
    (State.resetWith p).rs.phase = .idle ∧ (State.resetWith p).sdo = false ∧ (State.resetWith p).sck = false ∧
    (State.resetWith p).txn = false ∧ (State.resetWith p).out = [] ∧ (State.resetWith p).fault = none ∧
    (State.resetWith p).t = 0) ∧
  State.reset.cnt = 0x00#8 ∧ State.reset.params.storeLayout = .doc ∧ State.reset.params.partialAlign = .left ∧
  State.reset.params.passAtomic = false

/-- The invariants hold at reset, for every value of the parameters (10_state R24). Of what they ask R24 leaves some
unspecified, and there it is the model's values that meet them: the sector, the accumulator and its count (log 4), the
length of the chain (log 5), and where the handler starts (log 15). -/
def Obligations.InvariantsHoldAtReset : Prop :=
  ∀ p, StoreInv (State.resetWith p) ∧ PassInv (State.resetWith p) ∧ ScheduleInv (State.resetWith p) ∧
    HandlerInv (State.resetWith p)

/-- The parameters are constant along every run (10_state R23), and the trace is only ever appended to, but for a
`RESET`, which empties it (10_state R20). -/
def Obligations.ParamsFixedTraceGrows : Prop :=
  ∀ (s s' : State), step s = .next s' →
    s'.params = s.params ∧ if s.nextLine = .reset then s'.out = [] else ∃ more, s'.out = s.out ++ more

/-- Hold times and on-time, tied to the tick (40_scheduler R76, 42_serializer R113, R114). After every `TICK` of an
idle machine with a whole chain, once it showed a plane, each output of the chain is the bit of plane `planeOf cnt` of
its channel byte: a rendering tick makes it so, an idle one keeps it. Of the 256 values the counter takes in a cycle,
`holdTicks k` are those of plane `k`, which add up to 256, and `onTime v` are those whose plane is a set bit of `v`;
that fraction is within one tick of `v / 255`. The chain is the spec's own reference model (42_serializer R112, log
22). -/
def Obligations.HoldsAndOnTime : Prop :=
  (∀ (s : State), NextIs s .tick → s.busy = false → s.chain.sh.length = s.params.frameBits →
    ∃ s', step s = .next s' ∧
      (popcount (s.cnt + 1#8) = 1 →
        ShowsPlane s' ∧ renderMask (decodeCnt (s.cnt + 1#8)) = BitVec.ofNat 8 (2 ^ planeOf s'.cnt)) ∧
      (popcount (s.cnt + 1#8) ≠ 1 → planeOf s'.cnt = planeOf s.cnt ∧ s'.chain = s.chain ∧
        (ShowsPlane s → ShowsPlane s'))) ∧
  (∀ k, k < 8 → ((List.range 256).filter fun n => planeOf (BitVec.ofNat 8 n) == k).length = holdTicks k) ∧
  ((List.range 8).map holdTicks).sum = 256 ∧
  ∀ v : Byte,
    ((List.range 256).filter fun n => v.getLsbD (planeOf (BitVec.ofNat 8 n))).length = onTime v ∧
    255 * onTime v ≤ 256 * v.toNat + 127 ∧ 256 * v.toNat ≤ 255 * onTime v + 127
end

