-- ==== Sys2Proof/Laws/Memory.lean ====
section
/-! SUPPORT. The laws of the store: a read after a write, the canonical form that every write keeps, and that memories
in that form are equal when they read alike. -/

namespace Sys2Proof.Machine

@[simp] theorem Memory.read_nil (a : Nat) : Memory.read [] a = Memory.unlisted := rfl

@[simp] theorem Memory.read_cons (b : Nat) (w : Byte) (m : Memory) (a : Nat) :
    Memory.read ((b, w) :: m) a = if b = a then w else Memory.read m a := rfl

theorem Memory.wfFrom_cons (lo a : Nat) (v : Byte) (m : Memory) :
    Memory.wfFrom lo ((a, v) :: m) = true ↔ lo ≤ a ∧ v ≠ Memory.unlisted ∧ Memory.wfFrom (a + 1) m = true := by
  simp [Memory.wfFrom, and_assoc]

/-- A canonical memory from `lo` on reads as unlisted below `lo`. -/
theorem Memory.read_below {m : Memory} : ∀ {lo a : Nat}, Memory.wfFrom lo m = true → a < lo →
    m.read a = Memory.unlisted := by
  induction m with
  | nil => intros; rfl
  | cons c m ih =>
    obtain ⟨b, w⟩ := c
    intro lo a h ha
    obtain ⟨hlo, -, hm⟩ := (Memory.wfFrom_cons lo b w m).1 h
    rw [Memory.read_cons, if_neg (by omega)]
    exact ih hm (by omega)

theorem Memory.wfFrom_mono {m : Memory} {lo lo' : Nat} (h : Memory.wfFrom lo m = true) (hle : lo' ≤ lo) :
    Memory.wfFrom lo' m = true := by
  cases m with
  | nil => rfl
  | cons c m =>
    obtain ⟨b, w⟩ := c
    obtain ⟨hlo, hv, hm⟩ := (Memory.wfFrom_cons lo b w m).1 h
    exact (Memory.wfFrom_cons lo' b w m).2 ⟨by omega, hv, hm⟩

/-- A write keeps the canonical form. -/
theorem Memory.wfFrom_write {m : Memory} : ∀ {lo a : Nat} (v : Byte), Memory.wfFrom lo m = true → lo ≤ a →
    Memory.wfFrom lo (m.write a v) = true := by
  induction m with
  | nil =>
    intro lo a v _ ha
    by_cases hv : v = Memory.unlisted <;> simp [Memory.write, Memory.wfFrom, hv, ha]
  | cons c m ih =>
    obtain ⟨b, w⟩ := c
    intro lo a v h ha
    obtain ⟨hlo, hw, hm⟩ := (Memory.wfFrom_cons lo b w m).1 h
    unfold Memory.write
    split_ifs with hlt hv heq hv
    · exact h
    · exact (Memory.wfFrom_cons ..).2 ⟨ha, hv, (Memory.wfFrom_cons ..).2 ⟨hlt, hw, hm⟩⟩
    · exact Memory.wfFrom_mono hm (by omega)
    · exact (Memory.wfFrom_cons ..).2 ⟨ha, hv, heq ▸ hm⟩
    · exact (Memory.wfFrom_cons ..).2 ⟨hlo, hw, ih v hm (by omega)⟩

theorem Memory.wf_write {m : Memory} (a : Nat) (v : Byte) (h : m.wf = true) : (m.write a v).wf = true :=
  Memory.wfFrom_write v h (Nat.zero_le a)

theorem Memory.wf_nil : Memory.wf [] = true := rfl

theorem Memory.within_cons (size a : Nat) (v : Byte) (m : Memory) :
    Memory.within size ((a, v) :: m) = true ↔ a < size ∧ Memory.within size m = true := by
  rw [Memory.within, Memory.within, List.all_cons, Bool.and_eq_true, decide_eq_true_eq]

theorem Memory.within_write {m : Memory} {size a : Nat} (v : Byte) (h : m.within size = true) (ha : a < size) :
    (m.write a v).within size = true := by
  induction m with
  | nil => by_cases hv : v = Memory.unlisted <;> simp [Memory.write, Memory.within, hv, ha]
  | cons c m ih =>
    obtain ⟨b, w⟩ := c
    obtain ⟨hb, hm⟩ := (Memory.within_cons ..).1 h
    unfold Memory.write
    split_ifs
    · exact h
    · exact (Memory.within_cons ..).2 ⟨ha, h⟩
    · exact hm
    · exact (Memory.within_cons ..).2 ⟨ha, hm⟩
    · exact (Memory.within_cons ..).2 ⟨hb, ih hm⟩

/-- A write leaves every other address alone. -/
theorem Memory.read_write_other {m : Memory} {a b : Nat} (v : Byte) (h : b ≠ a) :
    (m.write a v).read b = m.read b := by
  induction m with
  | nil => by_cases hv : v = Memory.unlisted <;> simp [Memory.write, hv, Ne.symm h]
  | cons c m ih =>
    obtain ⟨x, w⟩ := c
    unfold Memory.write
    split_ifs with hlt hv heq hv
    · rfl
    · rw [Memory.read_cons, if_neg (Ne.symm h)]
    · rw [Memory.read_cons, if_neg (by omega)]
    · rw [Memory.read_cons, if_neg (Ne.symm h), Memory.read_cons, if_neg (by omega)]
    · rw [Memory.read_cons, Memory.read_cons, ih]

/-- A read after a write to the same address gives the value written. -/
theorem Memory.read_write_same {m : Memory} : ∀ {lo a : Nat} (v : Byte), Memory.wfFrom lo m = true →
    (m.write a v).read a = v := by
  induction m with
  | nil => intro lo a v _; by_cases hv : v = Memory.unlisted <;> simp [Memory.write, hv]
  | cons c m ih =>
    obtain ⟨x, w⟩ := c
    intro lo a v h
    obtain ⟨hlo, -, hm⟩ := (Memory.wfFrom_cons lo x w m).1 h
    unfold Memory.write
    split_ifs with hlt hv heq hv
    · rw [Memory.read_cons, if_neg (by omega), hv]
      exact Memory.read_below hm (by omega)
    · rw [Memory.read_cons, if_pos rfl]
    · rw [hv]
      exact Memory.read_below hm (by omega)
    · rw [Memory.read_cons, if_pos rfl]
    · rw [Memory.read_cons, if_neg (by omega)]
      exact ih v hm

theorem Memory.read_write {m : Memory} (a b : Nat) (v : Byte) (h : m.wf = true) :
    (m.write a v).read b = if b = a then v else m.read b := by
  split_ifs with hb
  · rw [hb]; exact Memory.read_write_same v h
  · exact Memory.read_write_other v hb

/-- Canonical memories that read alike at every address are the same list. -/
theorem Memory.ext_read {m : Memory} : ∀ {lo : Nat} {m' : Memory}, Memory.wfFrom lo m = true →
    Memory.wfFrom lo m' = true → (∀ a, m.read a = m'.read a) → m = m' := by
  induction m with
  | nil =>
    intro lo m' _ h' heq
    cases m' with
    | nil => rfl
    | cons c m' =>
      obtain ⟨b, w⟩ := c
      have := heq b
      simp only [Memory.read_nil, Memory.read_cons, if_true] at this
      exact absurd this.symm ((Memory.wfFrom_cons ..).1 h').2.1
  | cons c m ih =>
    obtain ⟨a, v⟩ := c
    intro lo m' h h' heq
    obtain ⟨-, hv, hm⟩ := (Memory.wfFrom_cons ..).1 h
    cases m' with
    | nil =>
      have := heq a
      simp only [Memory.read_nil, Memory.read_cons, if_true] at this
      exact absurd this hv
    | cons c' m' =>
      obtain ⟨b, w⟩ := c'
      obtain ⟨-, hw, hm'⟩ := (Memory.wfFrom_cons ..).1 h'
      have hab : a = b := by
        rcases Nat.lt_trichotomy a b with hlt | rfl | hlt
        · have := heq a
          rw [Memory.read_cons, if_pos rfl, Memory.read_cons, if_neg (by omega),
            Memory.read_below hm' (by omega)] at this
          exact absurd this hv
        · rfl
        · have := heq b
          rw [Memory.read_cons, if_neg (by omega), Memory.read_below hm (by omega), Memory.read_cons,
            if_pos rfl] at this
          exact absurd this.symm hw
      subst hab
      have hvw : v = w := by simpa using heq a
      subst hvw
      rw [ih hm hm' fun x => ?_]
      by_cases hx : a = x
      · subst hx
        rw [Memory.read_below hm (by omega), Memory.read_below hm' (by omega)]
      · simpa [hx] using heq x

/-- The memory of every reset state is canonical (10_state R24). -/
theorem State.resetWith_store_wf (p : Config.Params) : (State.resetWith p).store.wf = true := rfl

end Sys2Proof.Machine
end

