-- ==== Sys2Proof/Laws/State.lean ====
section
/-! SUPPORT. Every field after every record update, so that no later proof unfolds an update. -/

namespace Sys2Proof.Machine

variable (s : State)

@[simp] theorem State.emit_params (e : Event) : (s.emit e).params = s.params := rfl
@[simp] theorem State.emit_store (e : Event) : (s.emit e).store = s.store := rfl
@[simp] theorem State.emit_cnt (e : Event) : (s.emit e).cnt = s.cnt := rfl
@[simp] theorem State.emit_latch (e : Event) : (s.emit e).latch = s.latch := rfl
@[simp] theorem State.emit_rs (e : Event) : (s.emit e).rs = s.rs := rfl
@[simp] theorem State.emit_sdo (e : Event) : (s.emit e).sdo = s.sdo := rfl
@[simp] theorem State.emit_sck (e : Event) : (s.emit e).sck = s.sck := rfl
@[simp] theorem State.emit_txn (e : Event) : (s.emit e).txn = s.txn := rfl
@[simp] theorem State.emit_out (e : Event) : (s.emit e).out = s.out ++ [(s.t, e)] := rfl
@[simp] theorem State.emit_fault (e : Event) : (s.emit e).fault = s.fault := rfl
@[simp] theorem State.emit_t (e : Event) : (s.emit e).t = s.t := rfl
@[simp] theorem State.emit_chain (e : Event) : (s.emit e).chain = s.chain := rfl
@[simp] theorem State.emit_handler (e : Event) : (s.emit e).handler = s.handler := rfl
@[simp] theorem State.emit_script (e : Event) : (s.emit e).script = s.script := rfl
@[simp] theorem State.emit_freeCtr (e : Event) : (s.emit e).freeCtr = s.freeCtr := rfl

@[simp] theorem State.raise_params (f : Fault) : (s.raise f).params = s.params := rfl
@[simp] theorem State.raise_store (f : Fault) : (s.raise f).store = s.store := rfl
@[simp] theorem State.raise_cnt (f : Fault) : (s.raise f).cnt = s.cnt := rfl
@[simp] theorem State.raise_latch (f : Fault) : (s.raise f).latch = s.latch := rfl
@[simp] theorem State.raise_rs (f : Fault) : (s.raise f).rs = s.rs := rfl
@[simp] theorem State.raise_sdo (f : Fault) : (s.raise f).sdo = s.sdo := rfl
@[simp] theorem State.raise_sck (f : Fault) : (s.raise f).sck = s.sck := rfl
@[simp] theorem State.raise_txn (f : Fault) : (s.raise f).txn = s.txn := rfl
@[simp] theorem State.raise_out (f : Fault) : (s.raise f).out = s.out := rfl
@[simp] theorem State.raise_fault (f : Fault) : (s.raise f).fault = some (s.fault.getD f) := rfl
@[simp] theorem State.raise_t (f : Fault) : (s.raise f).t = s.t := rfl
@[simp] theorem State.raise_chain (f : Fault) : (s.raise f).chain = s.chain := rfl
@[simp] theorem State.raise_handler (f : Fault) : (s.raise f).handler = s.handler := rfl
@[simp] theorem State.raise_script (f : Fault) : (s.raise f).script = s.script := rfl
@[simp] theorem State.raise_freeCtr (f : Fault) : (s.raise f).freeCtr = s.freeCtr := rfl

@[simp] theorem State.setRs_params (rs : Sequencer) : (s.setRs rs).params = s.params := rfl
@[simp] theorem State.setRs_store (rs : Sequencer) : (s.setRs rs).store = s.store := rfl
@[simp] theorem State.setRs_cnt (rs : Sequencer) : (s.setRs rs).cnt = s.cnt := rfl
@[simp] theorem State.setRs_latch (rs : Sequencer) : (s.setRs rs).latch = s.latch := rfl
@[simp] theorem State.setRs_rs (rs : Sequencer) : (s.setRs rs).rs = rs := rfl
@[simp] theorem State.setRs_sdo (rs : Sequencer) : (s.setRs rs).sdo = s.sdo := rfl
@[simp] theorem State.setRs_sck (rs : Sequencer) : (s.setRs rs).sck = s.sck := rfl
@[simp] theorem State.setRs_txn (rs : Sequencer) : (s.setRs rs).txn = s.txn := rfl
@[simp] theorem State.setRs_out (rs : Sequencer) : (s.setRs rs).out = s.out := rfl
@[simp] theorem State.setRs_fault (rs : Sequencer) : (s.setRs rs).fault = s.fault := rfl
@[simp] theorem State.setRs_t (rs : Sequencer) : (s.setRs rs).t = s.t := rfl
@[simp] theorem State.setRs_chain (rs : Sequencer) : (s.setRs rs).chain = s.chain := rfl
@[simp] theorem State.setRs_handler (rs : Sequencer) : (s.setRs rs).handler = s.handler := rfl
@[simp] theorem State.setRs_script (rs : Sequencer) : (s.setRs rs).script = s.script := rfl
@[simp] theorem State.setRs_freeCtr (rs : Sequencer) : (s.setRs rs).freeCtr = s.freeCtr := rfl

@[simp] theorem State.setHandlerPhase_params (p : HandlerPhase) : (s.setHandlerPhase p).params = s.params := rfl
@[simp] theorem State.setHandlerPhase_store (p : HandlerPhase) : (s.setHandlerPhase p).store = s.store := rfl
@[simp] theorem State.setHandlerPhase_cnt (p : HandlerPhase) : (s.setHandlerPhase p).cnt = s.cnt := rfl
@[simp] theorem State.setHandlerPhase_latch (p : HandlerPhase) : (s.setHandlerPhase p).latch = s.latch := rfl
@[simp] theorem State.setHandlerPhase_rs (p : HandlerPhase) : (s.setHandlerPhase p).rs = s.rs := rfl
@[simp] theorem State.setHandlerPhase_sdo (p : HandlerPhase) : (s.setHandlerPhase p).sdo = s.sdo := rfl
@[simp] theorem State.setHandlerPhase_sck (p : HandlerPhase) : (s.setHandlerPhase p).sck = s.sck := rfl
@[simp] theorem State.setHandlerPhase_txn (p : HandlerPhase) : (s.setHandlerPhase p).txn = s.txn := rfl
@[simp] theorem State.setHandlerPhase_out (p : HandlerPhase) : (s.setHandlerPhase p).out = s.out := rfl
@[simp] theorem State.setHandlerPhase_fault (p : HandlerPhase) : (s.setHandlerPhase p).fault = s.fault := rfl
@[simp] theorem State.setHandlerPhase_t (p : HandlerPhase) : (s.setHandlerPhase p).t = s.t := rfl
@[simp] theorem State.setHandlerPhase_chain (p : HandlerPhase) : (s.setHandlerPhase p).chain = s.chain := rfl
@[simp] theorem State.setHandlerPhase_handler (p : HandlerPhase) :
    (s.setHandlerPhase p).handler = { s.handler with phase := p } := rfl
@[simp] theorem State.setHandlerPhase_script (p : HandlerPhase) : (s.setHandlerPhase p).script = s.script := rfl
@[simp] theorem State.setHandlerPhase_freeCtr (p : HandlerPhase) : (s.setHandlerPhase p).freeCtr = s.freeCtr := rfl

@[simp] theorem State.setRx_params (bytes : List Received) : (s.setRx bytes).params = s.params := rfl
@[simp] theorem State.setRx_store (bytes : List Received) : (s.setRx bytes).store = s.store := rfl
@[simp] theorem State.setRx_cnt (bytes : List Received) : (s.setRx bytes).cnt = s.cnt := rfl
@[simp] theorem State.setRx_latch (bytes : List Received) : (s.setRx bytes).latch = s.latch := rfl
@[simp] theorem State.setRx_rs (bytes : List Received) : (s.setRx bytes).rs = s.rs := rfl
@[simp] theorem State.setRx_sdo (bytes : List Received) : (s.setRx bytes).sdo = s.sdo := rfl
@[simp] theorem State.setRx_sck (bytes : List Received) : (s.setRx bytes).sck = s.sck := rfl
@[simp] theorem State.setRx_txn (bytes : List Received) : (s.setRx bytes).txn = s.txn := rfl
@[simp] theorem State.setRx_out (bytes : List Received) : (s.setRx bytes).out = s.out := rfl
@[simp] theorem State.setRx_fault (bytes : List Received) : (s.setRx bytes).fault = s.fault := rfl
@[simp] theorem State.setRx_t (bytes : List Received) : (s.setRx bytes).t = s.t := rfl
@[simp] theorem State.setRx_chain (bytes : List Received) : (s.setRx bytes).chain = s.chain := rfl
@[simp] theorem State.setRx_handler (bytes : List Received) :
    (s.setRx bytes).handler = { s.handler with rx := bytes } := rfl
@[simp] theorem State.setRx_script (bytes : List Received) : (s.setRx bytes).script = s.script := rfl
@[simp] theorem State.setRx_freeCtr (bytes : List Received) : (s.setRx bytes).freeCtr = s.freeCtr := rfl

@[simp] theorem State.beginRead_params (p : HandlerPhase) : (s.beginRead p).params = s.params := rfl
@[simp] theorem State.beginRead_store (p : HandlerPhase) : (s.beginRead p).store = s.store := rfl
@[simp] theorem State.beginRead_cnt (p : HandlerPhase) : (s.beginRead p).cnt = s.cnt := rfl
@[simp] theorem State.beginRead_latch (p : HandlerPhase) : (s.beginRead p).latch = s.latch := rfl
@[simp] theorem State.beginRead_rs (p : HandlerPhase) : (s.beginRead p).rs = s.rs := rfl
@[simp] theorem State.beginRead_sdo (p : HandlerPhase) : (s.beginRead p).sdo = s.sdo := rfl
@[simp] theorem State.beginRead_sck (p : HandlerPhase) : (s.beginRead p).sck = s.sck := rfl
@[simp] theorem State.beginRead_txn (p : HandlerPhase) : (s.beginRead p).txn = s.txn := rfl
@[simp] theorem State.beginRead_out (p : HandlerPhase) : (s.beginRead p).out = s.out := rfl
@[simp] theorem State.beginRead_fault (p : HandlerPhase) : (s.beginRead p).fault = s.fault := rfl
@[simp] theorem State.beginRead_t (p : HandlerPhase) : (s.beginRead p).t = s.t := rfl
@[simp] theorem State.beginRead_chain (p : HandlerPhase) : (s.beginRead p).chain = s.chain := rfl
@[simp] theorem State.beginRead_handler (p : HandlerPhase) :
    (s.beginRead p).handler = { s.handler with phase := p, began := s.handler.now } := rfl
@[simp] theorem State.beginRead_script (p : HandlerPhase) : (s.beginRead p).script = s.script := rfl
@[simp] theorem State.beginRead_freeCtr (p : HandlerPhase) : (s.beginRead p).freeCtr = s.freeCtr := rfl

@[simp] theorem State.drain_params : (s.drain).params = s.params := rfl
@[simp] theorem State.drain_store : (s.drain).store = s.store := rfl
@[simp] theorem State.drain_cnt : (s.drain).cnt = s.cnt := rfl
@[simp] theorem State.drain_latch : (s.drain).latch = s.latch := rfl
@[simp] theorem State.drain_rs : (s.drain).rs = s.rs := rfl
@[simp] theorem State.drain_sdo : (s.drain).sdo = s.sdo := rfl
@[simp] theorem State.drain_sck : (s.drain).sck = s.sck := rfl
@[simp] theorem State.drain_txn : (s.drain).txn = s.txn := rfl
@[simp] theorem State.drain_out : (s.drain).out = s.out := rfl
@[simp] theorem State.drain_fault : (s.drain).fault = s.fault := rfl
@[simp] theorem State.drain_t : (s.drain).t = s.t := rfl
@[simp] theorem State.drain_chain : (s.drain).chain = s.chain := rfl
@[simp] theorem State.drain_handler : (s.drain).handler = { s.handler with rx := [] } := rfl
@[simp] theorem State.drain_script : (s.drain).script = s.script := rfl
@[simp] theorem State.drain_freeCtr : (s.drain).freeCtr = s.freeCtr := rfl

@[simp] theorem State.sendStatus_params (st : Status) : (s.sendStatus st).params = s.params := rfl
@[simp] theorem State.sendStatus_store (st : Status) : (s.sendStatus st).store = s.store := rfl
@[simp] theorem State.sendStatus_cnt (st : Status) : (s.sendStatus st).cnt = s.cnt := rfl
@[simp] theorem State.sendStatus_latch (st : Status) : (s.sendStatus st).latch = s.latch := rfl
@[simp] theorem State.sendStatus_rs (st : Status) : (s.sendStatus st).rs = s.rs := rfl
@[simp] theorem State.sendStatus_sdo (st : Status) : (s.sendStatus st).sdo = s.sdo := rfl
@[simp] theorem State.sendStatus_sck (st : Status) : (s.sendStatus st).sck = s.sck := rfl
@[simp] theorem State.sendStatus_txn (st : Status) : (s.sendStatus st).txn = s.txn := rfl
@[simp] theorem State.sendStatus_out (st : Status) : (s.sendStatus st).out = s.out := rfl
@[simp] theorem State.sendStatus_fault (st : Status) : (s.sendStatus st).fault = s.fault := rfl
@[simp] theorem State.sendStatus_t (st : Status) : (s.sendStatus st).t = s.t := rfl
@[simp] theorem State.sendStatus_chain (st : Status) : (s.sendStatus st).chain = s.chain := rfl
@[simp] theorem State.sendStatus_handler (st : Status) :
    (s.sendStatus st).handler = { s.handler with tx := s.handler.tx ++ [statusByte st] } := rfl
@[simp] theorem State.sendStatus_script (st : Status) : (s.sendStatus st).script = s.script := rfl
@[simp] theorem State.sendStatus_freeCtr (st : Status) : (s.sendStatus st).freeCtr = s.freeCtr := rfl

@[simp] theorem State.endFrame_params (st : Status) : (s.endFrame st).params = s.params := rfl
@[simp] theorem State.endFrame_store (st : Status) : (s.endFrame st).store = s.store := rfl
@[simp] theorem State.endFrame_cnt (st : Status) : (s.endFrame st).cnt = s.cnt := rfl
@[simp] theorem State.endFrame_latch (st : Status) : (s.endFrame st).latch = s.latch := rfl
@[simp] theorem State.endFrame_rs (st : Status) : (s.endFrame st).rs = s.rs := rfl
@[simp] theorem State.endFrame_sdo (st : Status) : (s.endFrame st).sdo = s.sdo := rfl
@[simp] theorem State.endFrame_sck (st : Status) : (s.endFrame st).sck = s.sck := rfl
@[simp] theorem State.endFrame_txn (st : Status) : (s.endFrame st).txn = s.txn := rfl
@[simp] theorem State.endFrame_out (st : Status) : (s.endFrame st).out = s.out := rfl
@[simp] theorem State.endFrame_fault (st : Status) : (s.endFrame st).fault = s.fault := rfl
@[simp] theorem State.endFrame_t (st : Status) : (s.endFrame st).t = s.t := rfl
@[simp] theorem State.endFrame_chain (st : Status) : (s.endFrame st).chain = s.chain := rfl
@[simp] theorem State.endFrame_handler (st : Status) :
    (s.endFrame st).handler = { s.handler with phase := .idle, rx := [], tx := s.handler.tx ++ [statusByte st] } := rfl
@[simp] theorem State.endFrame_script (st : Status) : (s.endFrame st).script = s.script := rfl
@[simp] theorem State.endFrame_freeCtr (st : Status) : (s.endFrame st).freeCtr = s.freeCtr := rfl

@[simp] theorem State.drawFree_params : (s.drawFree).params = s.params := rfl
@[simp] theorem State.drawFree_store : (s.drawFree).store = s.store := rfl
@[simp] theorem State.drawFree_cnt : (s.drawFree).cnt = s.cnt := rfl
@[simp] theorem State.drawFree_latch : (s.drawFree).latch = s.latch := rfl
@[simp] theorem State.drawFree_rs : (s.drawFree).rs = s.rs := rfl
@[simp] theorem State.drawFree_sdo : (s.drawFree).sdo = s.sdo := rfl
@[simp] theorem State.drawFree_sck : (s.drawFree).sck = s.sck := rfl
@[simp] theorem State.drawFree_txn : (s.drawFree).txn = s.txn := rfl
@[simp] theorem State.drawFree_out : (s.drawFree).out = s.out := rfl
@[simp] theorem State.drawFree_fault : (s.drawFree).fault = s.fault := rfl
@[simp] theorem State.drawFree_t : (s.drawFree).t = s.t := rfl
@[simp] theorem State.drawFree_chain : (s.drawFree).chain = s.chain := rfl
@[simp] theorem State.drawFree_handler : (s.drawFree).handler = s.handler := rfl
@[simp] theorem State.drawFree_script : (s.drawFree).script = s.script := rfl
@[simp] theorem State.drawFree_freeCtr : (s.drawFree).freeCtr = s.freeCtr + 1 := rfl

@[simp] theorem State.drainFreely_params : (s.drainFreely).params = s.params := rfl
@[simp] theorem State.drainFreely_store : (s.drainFreely).store = s.store := rfl
@[simp] theorem State.drainFreely_cnt : (s.drainFreely).cnt = s.cnt := rfl
@[simp] theorem State.drainFreely_latch : (s.drainFreely).latch = s.latch := rfl
@[simp] theorem State.drainFreely_rs : (s.drainFreely).rs = s.rs := rfl
@[simp] theorem State.drainFreely_sdo : (s.drainFreely).sdo = s.sdo := rfl
@[simp] theorem State.drainFreely_sck : (s.drainFreely).sck = s.sck := rfl
@[simp] theorem State.drainFreely_txn : (s.drainFreely).txn = s.txn := rfl
@[simp] theorem State.drainFreely_out : (s.drainFreely).out = s.out := rfl
@[simp] theorem State.drainFreely_fault : (s.drainFreely).fault = s.fault := rfl
@[simp] theorem State.drainFreely_t : (s.drainFreely).t = s.t := rfl
@[simp] theorem State.drainFreely_chain : (s.drainFreely).chain = s.chain := rfl
@[simp] theorem State.drainFreely_handler :
    (s.drainFreely).handler = { s.handler with rx := if s.nextFree then [] else s.handler.rx } := rfl
@[simp] theorem State.drainFreely_script : (s.drainFreely).script = s.script := rfl
@[simp] theorem State.drainFreely_freeCtr : (s.drainFreely).freeCtr = s.freeCtr + 1 := rfl

@[simp] theorem State.inc_params : (s.inc).params = s.params := rfl
@[simp] theorem State.inc_store : (s.inc).store = s.store := rfl
@[simp] theorem State.inc_cnt : (s.inc).cnt = s.cnt + 1#8 := rfl
@[simp] theorem State.inc_latch : (s.inc).latch = s.latch := rfl
@[simp] theorem State.inc_rs : (s.inc).rs = s.rs := rfl
@[simp] theorem State.inc_sdo : (s.inc).sdo = s.sdo := rfl
@[simp] theorem State.inc_sck : (s.inc).sck = s.sck := rfl
@[simp] theorem State.inc_txn : (s.inc).txn = s.txn := rfl
@[simp] theorem State.inc_out : (s.inc).out = s.out := rfl
@[simp] theorem State.inc_fault : (s.inc).fault = s.fault := rfl
@[simp] theorem State.inc_t : (s.inc).t = s.t := rfl
@[simp] theorem State.inc_chain : (s.inc).chain = s.chain := rfl
@[simp] theorem State.inc_handler : (s.inc).handler = s.handler := rfl
@[simp] theorem State.inc_script : (s.inc).script = s.script := rfl
@[simp] theorem State.inc_freeCtr : (s.inc).freeCtr = s.freeCtr := rfl

@[simp] theorem State.countTick_params : (s.countTick).params = s.params := rfl
@[simp] theorem State.countTick_store : (s.countTick).store = s.store := rfl
@[simp] theorem State.countTick_cnt : (s.countTick).cnt = s.cnt := rfl
@[simp] theorem State.countTick_latch : (s.countTick).latch = s.latch := rfl
@[simp] theorem State.countTick_rs : (s.countTick).rs = s.rs := rfl
@[simp] theorem State.countTick_sdo : (s.countTick).sdo = s.sdo := rfl
@[simp] theorem State.countTick_sck : (s.countTick).sck = s.sck := rfl
@[simp] theorem State.countTick_txn : (s.countTick).txn = s.txn := rfl
@[simp] theorem State.countTick_out : (s.countTick).out = s.out := rfl
@[simp] theorem State.countTick_fault : (s.countTick).fault = s.fault := rfl
@[simp] theorem State.countTick_t : (s.countTick).t = s.t + 1 := rfl
@[simp] theorem State.countTick_chain : (s.countTick).chain = s.chain := rfl
@[simp] theorem State.countTick_handler : (s.countTick).handler = s.handler := rfl
@[simp] theorem State.countTick_script : (s.countTick).script = s.script := rfl
@[simp] theorem State.countTick_freeCtr : (s.countTick).freeCtr = s.freeCtr := rfl

@[simp] theorem State.txnBegin_params : (s.txnBegin).params = s.params := rfl
@[simp] theorem State.txnBegin_store : (s.txnBegin).store = s.store := rfl
@[simp] theorem State.txnBegin_cnt : (s.txnBegin).cnt = s.cnt := rfl
@[simp] theorem State.txnBegin_latch : (s.txnBegin).latch = s.latch := rfl
@[simp] theorem State.txnBegin_rs : (s.txnBegin).rs = s.rs := rfl
@[simp] theorem State.txnBegin_sdo : (s.txnBegin).sdo = s.sdo := rfl
@[simp] theorem State.txnBegin_sck : (s.txnBegin).sck = s.sck := rfl
@[simp] theorem State.txnBegin_txn : (s.txnBegin).txn = true := rfl
@[simp] theorem State.txnBegin_out : (s.txnBegin).out = s.out ++ [(s.t, .txnBegin)] := rfl
@[simp] theorem State.txnBegin_fault : (s.txnBegin).fault = s.fault := rfl
@[simp] theorem State.txnBegin_t : (s.txnBegin).t = s.t := rfl
@[simp] theorem State.txnBegin_chain : (s.txnBegin).chain = s.chain := rfl
@[simp] theorem State.txnBegin_handler : (s.txnBegin).handler = s.handler := rfl
@[simp] theorem State.txnBegin_script : (s.txnBegin).script = s.script := rfl
@[simp] theorem State.txnBegin_freeCtr : (s.txnBegin).freeCtr = s.freeCtr := rfl

@[simp] theorem State.driveData_params (x : Bool) : (s.driveData x).params = s.params := rfl
@[simp] theorem State.driveData_store (x : Bool) : (s.driveData x).store = s.store := rfl
@[simp] theorem State.driveData_cnt (x : Bool) : (s.driveData x).cnt = s.cnt := rfl
@[simp] theorem State.driveData_latch (x : Bool) : (s.driveData x).latch = s.latch := rfl
@[simp] theorem State.driveData_rs (x : Bool) : (s.driveData x).rs = s.rs := rfl
@[simp] theorem State.driveData_sdo (x : Bool) : (s.driveData x).sdo = x := rfl
@[simp] theorem State.driveData_sck (x : Bool) : (s.driveData x).sck = s.sck := rfl
@[simp] theorem State.driveData_txn (x : Bool) : (s.driveData x).txn = s.txn := rfl
@[simp] theorem State.driveData_out (x : Bool) : (s.driveData x).out = s.out := rfl
@[simp] theorem State.driveData_fault (x : Bool) : (s.driveData x).fault = s.fault := rfl
@[simp] theorem State.driveData_t (x : Bool) : (s.driveData x).t = s.t := rfl
@[simp] theorem State.driveData_chain (x : Bool) : (s.driveData x).chain = s.chain := rfl
@[simp] theorem State.driveData_handler (x : Bool) : (s.driveData x).handler = s.handler := rfl
@[simp] theorem State.driveData_script (x : Bool) : (s.driveData x).script = s.script := rfl
@[simp] theorem State.driveData_freeCtr (x : Bool) : (s.driveData x).freeCtr = s.freeCtr := rfl

@[simp] theorem State.pulseClock_params : (s.pulseClock).params = s.params := rfl
@[simp] theorem State.pulseClock_store : (s.pulseClock).store = s.store := rfl
@[simp] theorem State.pulseClock_cnt : (s.pulseClock).cnt = s.cnt := rfl
@[simp] theorem State.pulseClock_latch : (s.pulseClock).latch = s.latch := rfl
@[simp] theorem State.pulseClock_rs : (s.pulseClock).rs = s.rs := rfl
@[simp] theorem State.pulseClock_sdo : (s.pulseClock).sdo = s.sdo := rfl
@[simp] theorem State.pulseClock_sck : (s.pulseClock).sck = false := rfl
@[simp] theorem State.pulseClock_txn : (s.pulseClock).txn = s.txn := rfl
@[simp] theorem State.pulseClock_out : (s.pulseClock).out = s.out := rfl
@[simp] theorem State.pulseClock_fault : (s.pulseClock).fault = s.fault := rfl
@[simp] theorem State.pulseClock_t : (s.pulseClock).t = s.t := rfl
@[simp] theorem State.pulseClock_chain : (s.pulseClock).chain = { s.chain with sh := shiftIn s.sdo s.chain.sh } := rfl
@[simp] theorem State.pulseClock_handler : (s.pulseClock).handler = s.handler := rfl
@[simp] theorem State.pulseClock_script : (s.pulseClock).script = s.script := rfl
@[simp] theorem State.pulseClock_freeCtr : (s.pulseClock).freeCtr = s.freeCtr := rfl

@[simp] theorem State.bitOut_params (x : Bool) : (s.bitOut x).params = s.params := rfl
@[simp] theorem State.bitOut_store (x : Bool) : (s.bitOut x).store = s.store := rfl
@[simp] theorem State.bitOut_cnt (x : Bool) : (s.bitOut x).cnt = s.cnt := rfl
@[simp] theorem State.bitOut_latch (x : Bool) : (s.bitOut x).latch = s.latch := rfl
@[simp] theorem State.bitOut_rs (x : Bool) : (s.bitOut x).rs = s.rs := rfl
@[simp] theorem State.bitOut_sdo (x : Bool) : (s.bitOut x).sdo = x := rfl
@[simp] theorem State.bitOut_sck (x : Bool) : (s.bitOut x).sck = false := rfl
@[simp] theorem State.bitOut_txn (x : Bool) : (s.bitOut x).txn = s.txn := rfl
@[simp] theorem State.bitOut_out (x : Bool) : (s.bitOut x).out = s.out := rfl
@[simp] theorem State.bitOut_fault (x : Bool) : (s.bitOut x).fault = s.fault := rfl
@[simp] theorem State.bitOut_t (x : Bool) : (s.bitOut x).t = s.t := rfl
@[simp] theorem State.bitOut_chain (x : Bool) : (s.bitOut x).chain = { s.chain with sh := shiftIn x s.chain.sh } := rfl
@[simp] theorem State.bitOut_handler (x : Bool) : (s.bitOut x).handler = s.handler := rfl
@[simp] theorem State.bitOut_script (x : Bool) : (s.bitOut x).script = s.script := rfl
@[simp] theorem State.bitOut_freeCtr (x : Bool) : (s.bitOut x).freeCtr = s.freeCtr := rfl

@[simp] theorem State.txnEnd_params : (s.txnEnd).params = s.params := rfl
@[simp] theorem State.txnEnd_store : (s.txnEnd).store = s.store := rfl
@[simp] theorem State.txnEnd_cnt : (s.txnEnd).cnt = s.cnt := rfl
@[simp] theorem State.txnEnd_latch : (s.txnEnd).latch = s.latch := rfl
@[simp] theorem State.txnEnd_rs : (s.txnEnd).rs = s.rs := rfl
@[simp] theorem State.txnEnd_sdo : (s.txnEnd).sdo = s.sdo := rfl
@[simp] theorem State.txnEnd_sck : (s.txnEnd).sck = s.sck := rfl
@[simp] theorem State.txnEnd_txn : (s.txnEnd).txn = false := rfl
@[simp] theorem State.txnEnd_out : (s.txnEnd).out = s.out ++ [(s.t, .txnEnd)] := rfl
@[simp] theorem State.txnEnd_fault : (s.txnEnd).fault = s.fault := rfl
@[simp] theorem State.txnEnd_t : (s.txnEnd).t = s.t := rfl
@[simp] theorem State.txnEnd_chain : (s.txnEnd).chain = s.chain := rfl
@[simp] theorem State.txnEnd_handler : (s.txnEnd).handler = s.handler := rfl
@[simp] theorem State.txnEnd_script : (s.txnEnd).script = s.script := rfl
@[simp] theorem State.txnEnd_freeCtr : (s.txnEnd).freeCtr = s.freeCtr := rfl

@[simp] theorem State.commit_params : (s.commit).params = s.params := rfl
@[simp] theorem State.commit_store : (s.commit).store = s.store := rfl
@[simp] theorem State.commit_cnt : (s.commit).cnt = s.cnt := rfl
@[simp] theorem State.commit_latch : (s.commit).latch = true := rfl
@[simp] theorem State.commit_rs : (s.commit).rs = s.rs := rfl
@[simp] theorem State.commit_sdo : (s.commit).sdo = s.sdo := rfl
@[simp] theorem State.commit_sck : (s.commit).sck = s.sck := rfl
@[simp] theorem State.commit_txn : (s.commit).txn = s.txn := rfl
@[simp] theorem State.commit_out : (s.commit).out = s.out ++ [(s.t, .latchRise)] := rfl
@[simp] theorem State.commit_fault : (s.commit).fault = s.fault := rfl
@[simp] theorem State.commit_t : (s.commit).t = s.t := rfl
@[simp] theorem State.commit_chain : (s.commit).chain = { s.chain with ho := s.chain.sh } := rfl
@[simp] theorem State.commit_handler : (s.commit).handler = s.handler := rfl
@[simp] theorem State.commit_script : (s.commit).script = s.script := rfl
@[simp] theorem State.commit_freeCtr : (s.commit).freeCtr = s.freeCtr := rfl

@[simp] theorem State.startPass_params (m : Byte) : (s.startPass m).params = s.params := rfl
@[simp] theorem State.startPass_store (m : Byte) : (s.startPass m).store = s.store := rfl
@[simp] theorem State.startPass_cnt (m : Byte) : (s.startPass m).cnt = s.cnt := rfl
@[simp] theorem State.startPass_latch (m : Byte) : (s.startPass m).latch = s.latch := rfl
@[simp] theorem State.startPass_rs (m : Byte) : (s.startPass m).rs = Sequencer.started s.params m := rfl
@[simp] theorem State.startPass_sdo (m : Byte) : (s.startPass m).sdo = s.sdo := rfl
@[simp] theorem State.startPass_sck (m : Byte) : (s.startPass m).sck = s.sck := rfl
@[simp] theorem State.startPass_txn (m : Byte) : (s.startPass m).txn = true := rfl
@[simp] theorem State.startPass_out (m : Byte) : (s.startPass m).out = s.out ++ [(s.t, .txnBegin)] := rfl
@[simp] theorem State.startPass_fault (m : Byte) : (s.startPass m).fault = s.fault := rfl
@[simp] theorem State.startPass_t (m : Byte) : (s.startPass m).t = s.t := rfl
@[simp] theorem State.startPass_chain (m : Byte) : (s.startPass m).chain = s.chain := rfl
@[simp] theorem State.startPass_handler (m : Byte) : (s.startPass m).handler = s.handler := rfl
@[simp] theorem State.startPass_script (m : Byte) : (s.startPass m).script = s.script := rfl
@[simp] theorem State.startPass_freeCtr (m : Byte) : (s.startPass m).freeCtr = s.freeCtr := rfl

@[simp] theorem State.pack_params (bit : Bool) : (s.pack bit).params = s.params := rfl
@[simp] theorem State.pack_store (bit : Bool) : (s.pack bit).store = s.store := rfl
@[simp] theorem State.pack_cnt (bit : Bool) : (s.pack bit).cnt = s.cnt := rfl
@[simp] theorem State.pack_latch (bit : Bool) : (s.pack bit).latch = s.latch := rfl
@[simp] theorem State.pack_rs (bit : Bool) :
    (s.pack bit).rs =
      { s.rs with acc := packBit s.params.partialAlign bit s.rs.acc s.rs.nacc.toNat, nacc := s.rs.nacc + 1#4 } := rfl
@[simp] theorem State.pack_sdo (bit : Bool) : (s.pack bit).sdo = s.sdo := rfl
@[simp] theorem State.pack_sck (bit : Bool) : (s.pack bit).sck = s.sck := rfl
@[simp] theorem State.pack_txn (bit : Bool) : (s.pack bit).txn = s.txn := rfl
@[simp] theorem State.pack_out (bit : Bool) : (s.pack bit).out = s.out := rfl
@[simp] theorem State.pack_fault (bit : Bool) : (s.pack bit).fault = s.fault := rfl
@[simp] theorem State.pack_t (bit : Bool) : (s.pack bit).t = s.t := rfl
@[simp] theorem State.pack_chain (bit : Bool) : (s.pack bit).chain = s.chain := rfl
@[simp] theorem State.pack_handler (bit : Bool) : (s.pack bit).handler = s.handler := rfl
@[simp] theorem State.pack_script (bit : Bool) : (s.pack bit).script = s.script := rfl
@[simp] theorem State.pack_freeCtr (bit : Bool) : (s.pack bit).freeCtr = s.freeCtr := rfl

@[simp] theorem State.receive_params (b : Byte) : (s.receive b).params = s.params := rfl
@[simp] theorem State.receive_store (b : Byte) : (s.receive b).store = s.store := rfl
@[simp] theorem State.receive_cnt (b : Byte) : (s.receive b).cnt = s.cnt := rfl
@[simp] theorem State.receive_latch (b : Byte) : (s.receive b).latch = s.latch := rfl
@[simp] theorem State.receive_rs (b : Byte) : (s.receive b).rs = s.rs := rfl
@[simp] theorem State.receive_sdo (b : Byte) : (s.receive b).sdo = s.sdo := rfl
@[simp] theorem State.receive_sck (b : Byte) : (s.receive b).sck = s.sck := rfl
@[simp] theorem State.receive_txn (b : Byte) : (s.receive b).txn = s.txn := rfl
@[simp] theorem State.receive_out (b : Byte) : (s.receive b).out = s.out := rfl
@[simp] theorem State.receive_fault (b : Byte) : (s.receive b).fault = s.fault := rfl
@[simp] theorem State.receive_t (b : Byte) : (s.receive b).t = s.t := rfl
@[simp] theorem State.receive_chain (b : Byte) : (s.receive b).chain = s.chain := rfl
@[simp] theorem State.receive_handler (b : Byte) :
    (s.receive b).handler = { s.handler with rx := s.handler.rx ++ [{ byte := b, time := s.handler.now }] } := rfl
@[simp] theorem State.receive_script (b : Byte) : (s.receive b).script = s.script := rfl
@[simp] theorem State.receive_freeCtr (b : Byte) : (s.receive b).freeCtr = s.freeCtr := rfl

@[simp] theorem State.elapse_params (n : Nat) : (s.elapse n).params = s.params := rfl
@[simp] theorem State.elapse_store (n : Nat) : (s.elapse n).store = s.store := rfl
@[simp] theorem State.elapse_cnt (n : Nat) : (s.elapse n).cnt = s.cnt := rfl
@[simp] theorem State.elapse_latch (n : Nat) : (s.elapse n).latch = s.latch := rfl
@[simp] theorem State.elapse_rs (n : Nat) : (s.elapse n).rs = s.rs := rfl
@[simp] theorem State.elapse_sdo (n : Nat) : (s.elapse n).sdo = s.sdo := rfl
@[simp] theorem State.elapse_sck (n : Nat) : (s.elapse n).sck = s.sck := rfl
@[simp] theorem State.elapse_txn (n : Nat) : (s.elapse n).txn = s.txn := rfl
@[simp] theorem State.elapse_out (n : Nat) : (s.elapse n).out = s.out := rfl
@[simp] theorem State.elapse_fault (n : Nat) : (s.elapse n).fault = s.fault := rfl
@[simp] theorem State.elapse_t (n : Nat) : (s.elapse n).t = s.t := rfl
@[simp] theorem State.elapse_chain (n : Nat) : (s.elapse n).chain = s.chain := rfl
@[simp] theorem State.elapse_handler (n : Nat) :
    (s.elapse n).handler = { s.handler with now := s.handler.now + n } := rfl
@[simp] theorem State.elapse_script (n : Nat) : (s.elapse n).script = s.script := rfl
@[simp] theorem State.elapse_freeCtr (n : Nat) : (s.elapse n).freeCtr = s.freeCtr := rfl

@[simp] theorem State.dropLine_params : (s.dropLine).params = s.params := rfl
@[simp] theorem State.dropLine_store : (s.dropLine).store = s.store := rfl
@[simp] theorem State.dropLine_cnt : (s.dropLine).cnt = s.cnt := rfl
@[simp] theorem State.dropLine_latch : (s.dropLine).latch = s.latch := rfl
@[simp] theorem State.dropLine_rs : (s.dropLine).rs = s.rs := rfl
@[simp] theorem State.dropLine_sdo : (s.dropLine).sdo = s.sdo := rfl
@[simp] theorem State.dropLine_sck : (s.dropLine).sck = s.sck := rfl
@[simp] theorem State.dropLine_txn : (s.dropLine).txn = s.txn := rfl
@[simp] theorem State.dropLine_out : (s.dropLine).out = s.out := rfl
@[simp] theorem State.dropLine_fault : (s.dropLine).fault = s.fault := rfl
@[simp] theorem State.dropLine_t : (s.dropLine).t = s.t := rfl
@[simp] theorem State.dropLine_chain : (s.dropLine).chain = s.chain := rfl
@[simp] theorem State.dropLine_handler : (s.dropLine).handler = s.handler := rfl
@[simp] theorem State.dropLine_script : (s.dropLine).script = s.script.tail := rfl
@[simp] theorem State.dropLine_freeCtr : (s.dropLine).freeCtr = s.freeCtr := rfl

end Sys2Proof.Machine
end

