-- ==== Sys2Proof/Laws/Ops.lean ====
section
/-! SUPPORT. What each shared operation can do, said once: the write port, the burst, the serializer, the parts of a
micro-step, the pass. Later proofs cite these and do not unfold the operations. -/

namespace Sys2Proof.Machine

open Sys2Proof.Config

/-! ## The write port and the burst -/

theorem State.write_inside {s : State} {a : Nat} (v : Byte) (h : a < s.params.storeBytes) :
    s.write a v = { s with store := s.store.write a v } := if_pos h

theorem State.write_outside {s : State} {a : Nat} (v : Byte) (h : s.params.storeBytes ≤ a) :
    s.write a v = s.raise (.storeOverrun a v) := if_neg (Nat.not_lt.2 h)

/-- A write changes the store or the fault record, and nothing else. -/
theorem State.write_frame (a : Nat) (v : Byte) (s : State) :
    s.write a v = { s with store := (s.write a v).store, fault := (s.write a v).fault } := by
  unfold State.write
  split_ifs <;> rfl

@[simp] theorem State.write_params (a : Nat) (v : Byte) (s : State) : (s.write a v).params = s.params := by
  rw [State.write_frame]

theorem burst_nil (k : Nat) (s : State) : burst k [] s = s := rfl

theorem burst_cons (k : Nat) (d : Byte) (ds : List Byte) (s : State) :
    burst k (d :: ds) s =
      if (s.write k d).fault.isSome then s.write k d else burst (k + 1) ds (s.write k d) := rfl

/-- A burst changes the store or the fault record, and nothing else. -/
theorem burst_frame (ds : List Byte) : ∀ (k : Nat) (s : State),
    burst k ds s = { s with store := (burst k ds s).store, fault := (burst k ds s).fault } := by
  induction ds with
  | nil => intros; rfl
  | cons d ds ih =>
    intro k s
    rw [burst_cons]
    split_ifs
    · exact State.write_frame k d s
    · rw [ih, State.write_frame k d s]

/-- A burst that stays inside the store raises nothing, keeps the canonical form, and leaves the data at consecutive
addresses and every other byte as it was (43_store_write R121). -/
theorem burst_inside (ds : List Byte) : ∀ (k : Nat) (s : State), s.store.wf = true → s.fault = none →
    k + ds.length ≤ s.params.storeBytes →
    ∃ m, burst k ds s = { s with store := m } ∧ m.wf = true ∧
      ∀ a, m.read a = if k ≤ a ∧ a < k + ds.length then ds.getD (a - k) 0x00#8 else s.store.read a := by
  induction ds with
  | nil =>
    intro k s hwf _ _
    refine ⟨s.store, rfl, hwf, fun a => ?_⟩
    rw [if_neg (by simp only [List.length_nil]; omega)]
  | cons d ds ih =>
    intro k s hwf hf hlen
    rw [List.length_cons] at hlen
    have hw : s.write k d = { s with store := s.store.write k d } := State.write_inside d (by omega)
    obtain ⟨m, hm, hmwf, hread⟩ := ih (k + 1) (s.write k d) (by rw [hw]; exact Memory.wf_write k d hwf)
      (by rw [hw]; exact hf) (by rw [State.write_params]; omega)
    refine ⟨m, ?_, hmwf, fun a => ?_⟩
    · rw [burst_cons, if_neg (by rw [hw]; simp [hf]), hm, hw]
    · rw [hread a, hw, List.length_cons]
      rcases Nat.lt_trichotomy a k with h | rfl | h
      · rw [if_neg (by omega), if_neg (by omega), Memory.read_write _ _ _ hwf, if_neg (by omega)]
      · rw [if_neg (by omega), if_pos (by omega), Memory.read_write _ _ _ hwf, if_pos rfl]
        simp
      · obtain ⟨j, rfl⟩ : ∃ j, a = k + 1 + j := ⟨a - (k + 1), by omega⟩
        by_cases hin : k + 1 + j < k + 1 + ds.length
        · rw [if_pos (by omega), if_pos (by omega), show k + 1 + j - (k + 1) = j by omega,
            show k + 1 + j - k = j + 1 by omega, List.getD_cons_succ]
        · rw [if_neg (by omega), if_neg (by omega), Memory.read_write _ _ _ hwf, if_neg (by omega)]

/-- What writes can answer: their state, or a refusal inside an atomic pass (20_memory R47). -/
theorem State.admitWrites_next {data : List Byte} {s' s u : State} (h : s.admitWrites data s' = .next u) :
    u = s' ∧ (s.writesBarred = false ∨ data = []) := by
  unfold State.admitWrites at h
  split_ifs at h with hb
  injection h with h
  refine ⟨h.symm, ?_⟩
  cases hw : s.writesBarred
  · exact .inl rfl
  · exact .inr (by simpa [hw] using hb)

/-- Where writes are admitted, and where there is none, the answer is their state. -/
theorem State.admitWrites_eq {s : State} {data : List Byte} (s' : State)
    (h : s.writesBarred = false ∨ data = []) :
    s.admitWrites data s' = .next s' := by
  unfold State.admitWrites
  rcases h with h | rfl
  · rw [h]; rfl
  · simp

/-- Inside an atomic pass, writes are refused (20_memory R47). -/
theorem State.admitWrites_refused {s : State} {data : List Byte} (s' : State) (h : s.writesBarred = true)
    (hd : data ≠ []) : s.admitWrites data s' = .refused .writeInsidePass := by
  unfold State.admitWrites
  rw [if_pos (by simp [h, hd])]

/-- Writes are always admitted where passes are not atomic, and where no pass is in progress (20_memory R47). -/
theorem State.writesBarred_eq_false {s : State} (h : s.params.passAtomic = false ∨ s.busy = false) :
    s.writesBarred = false := by
  unfold State.writesBarred State.insidePass
  rcases h with h | h <;> simp [h]

/-! ## The serializer -/

/-- `LATCH_FALL` as one record (42_serializer R110). -/
theorem State.latchFall_eq (s : State) :
    s.latchFall = { s with
      latch := false, out := s.out ++ if s.latch then [(s.t, .latchFall)] else [] } := by
  unfold State.latchFall
  cases h : s.latch
  · obtain ⟨⟩ := s
    simp_all
  · simp [State.emit]

theorem shiftIn_length (x : Bool) (sh : List Bool) : (shiftIn x sh).length = sh.length := by
  simp [shiftIn]

/-- What the bits of a `SHIFT` leave unchanged. -/
theorem foldl_bitOut_frame (bits : List Bool) : ∀ s : State,
    (bits.foldl State.bitOut s) =
      { s with
        sdo := (bits.foldl State.bitOut s).sdo, sck := (bits.foldl State.bitOut s).sck,
        chain := { s.chain with sh := (bits.foldl State.bitOut s).chain.sh } } ∧
      (bits.foldl State.bitOut s).chain.sh.length = s.chain.sh.length := by
  induction bits with
  | nil => intro s; exact ⟨rfl, rfl⟩
  | cons b bits ih =>
    intro s
    obtain ⟨h1, h2⟩ := ih (s.bitOut b)
    rw [List.foldl_cons]
    refine ⟨?_, ?_⟩
    · rw [h1]; rfl
    · rw [h2, State.bitOut_chain, shiftIn_length]

/-- A `SHIFT` adds its event, moves the data and clock outputs and the shift stage, and nothing else; the shift stage
keeps its length (42_serializer R106). -/
theorem State.shiftByte_frame (b : Byte) (s : State) :
    s.shiftByte b = { s with
      out := s.out ++ [(s.t, .shift b)], sdo := (s.shiftByte b).sdo, sck := (s.shiftByte b).sck,
      chain := { s.chain with sh := (s.shiftByte b).chain.sh } } ∧
      (s.shiftByte b).chain.sh.length = s.chain.sh.length := by
  obtain ⟨h1, h2⟩ := foldl_bitOut_frame (bitsMsbFirst b) s
  refine ⟨?_, h2⟩
  unfold State.shiftByte
  generalize List.foldl State.bitOut s (bitsMsbFirst b) = x at h1
  rw [h1]
  rfl

/-! ## The pass -/

/-- What no micro-step changes: everything but the sequencer, the outputs, the chain and the trace. -/
structure PassFrame (s s' : State) : Prop where
  params  : s'.params = s.params
  store   : s'.store = s.store
  cnt     : s'.cnt = s.cnt
  fault   : s'.fault = s.fault
  t       : s'.t = s.t
  handler : s'.handler = s.handler
  script  : s'.script = s.script
  freeCtr : s'.freeCtr = s.freeCtr
  more    : ∃ l, s'.out = s.out ++ l

theorem PassFrame.refl (s : State) : PassFrame s s := ⟨rfl, rfl, rfl, rfl, rfl, rfl, rfl, rfl, [], by simp⟩

theorem PassFrame.trans {a b c : State} (h : PassFrame a b) (h' : PassFrame b c) : PassFrame a c := by
  obtain ⟨l, hl⟩ := h.more
  obtain ⟨l', hl'⟩ := h'.more
  exact ⟨h'.params.trans h.params, h'.store.trans h.store, h'.cnt.trans h.cnt, h'.fault.trans h.fault,
    h'.t.trans h.t, h'.handler.trans h.handler, h'.script.trans h.script, h'.freeCtr.trans h.freeCtr,
    l ++ l', by rw [hl', hl, List.append_assoc]⟩

theorem State.setRs_passFrame (rs : Sequencer) (s : State) : PassFrame s (s.setRs rs) :=
  ⟨rfl, rfl, rfl, rfl, rfl, rfl, rfl, rfl, [], by simp⟩

theorem State.shiftByte_passFrame (b : Byte) (s : State) : PassFrame s (s.shiftByte b) := by
  rw [(State.shiftByte_frame b s).1]
  exact ⟨rfl, rfl, rfl, rfl, rfl, rfl, rfl, rfl, _, rfl⟩

theorem State.pack_passFrame (bit : Bool) (s : State) : PassFrame s (s.pack bit) := State.setRs_passFrame _ s

theorem State.flush_passFrame (s : State) : PassFrame s s.flush := by
  unfold State.flush
  split_ifs
  · exact (State.shiftByte_passFrame _ s).trans (State.setRs_passFrame _ _)
  · exact PassFrame.refl s

theorem State.finish_passFrame (s : State) : PassFrame s s.finish :=
  ⟨rfl, rfl, rfl, rfl, rfl, rfl, rfl, rfl, [(s.t, .txnEnd), (s.t, .latchRise)], by
    simp [State.finish, List.append_assoc]⟩

theorem State.advance_passFrame (s : State) : PassFrame s s.advance := by
  unfold State.advance
  split_ifs
  · exact State.setRs_passFrame _ s
  · split
    · exact State.setRs_passFrame _ s
    · exact State.finish_passFrame s

theorem State.absorb_passFrame (v : Byte) (s : State) : PassFrame s (s.absorb v) :=
  ((State.pack_passFrame _ s).trans (State.flush_passFrame _)).trans (State.advance_passFrame _)

theorem State.startPass_passFrame (m : Byte) (s : State) : PassFrame s (s.startPass m) :=
  ⟨rfl, rfl, rfl, rfl, rfl, rfl, rfl, rfl, [(s.t, .txnBegin)], rfl⟩

/-- A sector index that is one is read whole (10_state R15). -/
theorem Sequencer.sector_eq {p : Params} {rs : Sequencer} (h : rs.sec ≤ p.lastSector) : rs.sector p = rs.sec :=
  Nat.mod_eq_of_lt (Nat.lt_of_le_of_lt h Nat.lt_log2_self)

/-- The address a micro-step reads, where its sector index is one (41_render R88). -/
theorem State.readAddr_eq {s : State} (h : s.rs.sec ≤ s.params.lastSector) :
    s.readAddr = channelAddr s.params s.rs.sec s.rs.ch := by
  rw [State.readAddr, Sequencer.sector_eq h]

/-- The address of a channel of a sector is in the store (20_memory R32). -/
theorem channelAddr_lt {p : Params} {sec : Nat} (ch : Channel) (h : sec ≤ p.lastSector) :
    channelAddr p sec ch < p.storeBytes := by
  have : channelOffset p.storeLayout ch ≤ 3 := by cases p.storeLayout <;> cases ch <;> decide
  simp only [channelAddr, Params.storeBytes, Params.numSectors, bytesPerSector]
  omega

/-- A micro-step that answers a next state was enabled, read one byte inside the store, and absorbed it. -/
theorem State.microStep_next {s s' : State} (h : s.microStep = .next s') :
    s.busy = true ∧ s.readAddr < s.params.storeBytes ∧ s' = s.absorb (s.store.read s.readAddr) := by
  unfold State.microStep State.readByte at h
  split_ifs at h with hb ha
  exact ⟨hb, ha, by injection h with h; exact h.symm⟩

/-- In the store, a micro-step of a pass in progress answers a next state. -/
theorem State.microStep_eq {s : State} (hb : s.busy = true) (ha : s.readAddr < s.params.storeBytes) :
    s.microStep = .next (s.absorb (s.store.read s.readAddr)) := by
  unfold State.microStep State.readByte
  rw [if_pos hb, if_pos ha]

theorem andThen_next {r : Result} {k : State → Result} {s' : State} (h : andThen r k = .next s') :
    ∃ s, r = .next s ∧ k s = .next s' := by
  cases r with
  | next s => exact ⟨s, rfl, h⟩
  | fault f => cases h
  | refused w => cases h

/-- A run of micro-steps keeps any property that one of them keeps. -/
theorem runPass_induction {P : State → Prop} (hstep : ∀ s s', P s → s.microStep = .next s' → P s') :
    ∀ (n : Nat) {s s' : State}, P s → runPass n s = .next s' → P s' := by
  intro n
  induction n with
  | zero => intro s s' hP h; injection h with h; exact h ▸ hP
  | succ n ih =>
    intro s s' hP h
    unfold runPass at h
    split_ifs at h with hb
    · obtain ⟨u, hu, h⟩ := andThen_next h
      exact ih (hstep s u hP hu) h
    · injection h with h; exact h ▸ hP

theorem runPass_passFrame {n : Nat} {s s' : State} (h : runPass n s = .next s') : PassFrame s s' :=
  runPass_induction (P := PassFrame s) (fun _ _ hP hm => hP.trans ((State.microStep_next hm).2.2 ▸
    State.absorb_passFrame _ _)) n (PassFrame.refl s) h

/-- The rest of a pass on an idle machine is nothing. -/
theorem runPass_idle {s : State} (h : s.busy = false) (n : Nat) : runPass n s = .next s := by
  cases n with
  | zero => rfl
  | succ n => rw [runPass, if_neg (by simp [h])]

end Sys2Proof.Machine
end

