-- ==== Sys2Proof/Laws/PerInstr.lean ====
section
/-! SUPPORT. Per-instruction laws of the encoding: each well-formed instruction's word matches exactly one row of the
opcode table within its format, the row with its own mnemonic (spec/30_encoding.md R63). -/

namespace Sys2Proof.Laws

open Sys2Proof

/-- The mnemonics of the rows of a format that a value matches. -/
def rowsOf (f : Format) (x : BitVec 16) : List String :=
  (opcodeTable.filter fun r => r.format == f && r.matches x).map OpcodeRow.mnemonic

/-- "Within a format exactly one row matches any value" (30_encoding R63), and it is the instruction's. -/
def TableRow.Statement (i : Instr) : Prop :=
  i.wellFormed = true → ∀ byte1, rowsOf i.format (i.tableWord byte1) = [i.mnemonic]

theorem TableRow.renderP0 : TableRow.Statement .renderP0 := fun _ _ =>
  show rowsOf .cnt8 (BitVec.setWidth 16 0x1#8) = ["RENDER.P0"] by decide +kernel
theorem TableRow.renderP1 : TableRow.Statement .renderP1 := fun _ _ =>
  show rowsOf .cnt8 (BitVec.setWidth 16 0x2#8) = ["RENDER.P1"] by decide +kernel
theorem TableRow.renderP2 : TableRow.Statement .renderP2 := fun _ _ =>
  show rowsOf .cnt8 (BitVec.setWidth 16 0x4#8) = ["RENDER.P2"] by decide +kernel
theorem TableRow.renderP3 : TableRow.Statement .renderP3 := fun _ _ =>
  show rowsOf .cnt8 (BitVec.setWidth 16 0x8#8) = ["RENDER.P3"] by decide +kernel
theorem TableRow.renderP4 : TableRow.Statement .renderP4 := fun _ _ =>
  show rowsOf .cnt8 (BitVec.setWidth 16 0x10#8) = ["RENDER.P4"] by decide +kernel
theorem TableRow.renderP5 : TableRow.Statement .renderP5 := fun _ _ =>
  show rowsOf .cnt8 (BitVec.setWidth 16 0x20#8) = ["RENDER.P5"] by decide +kernel
theorem TableRow.renderP6 : TableRow.Statement .renderP6 := fun _ _ =>
  show rowsOf .cnt8 (BitVec.setWidth 16 0x40#8) = ["RENDER.P6"] by decide +kernel
theorem TableRow.renderP7 : TableRow.Statement .renderP7 := fun _ _ =>
  show rowsOf .cnt8 (BitVec.setWidth 16 0x80#8) = ["RENDER.P7"] by decide +kernel

theorem rowsOf_idle : ∀ x : Byte, popcount x ≠ 1 → rowsOf .cnt8 (x.setWidth 16) = ["IDLE"] := by
  decide +kernel

theorem TableRow.idle (x : Byte) : TableRow.Statement (.idle x) := fun h _ =>
  rowsOf_idle x (by simpa [Instr.wellFormed] using h)

theorem TableRow.setColors (len : Byte) (data : List Byte) : TableRow.Statement (.setColors len data) :=
  fun _ _ => show rowsOf .pframe (startByte ++ setColorsAction) = ["SETCOLORS"] by decide +kernel

theorem rowsOf_unknown : ∀ a : Byte, a ≠ 0xA0#8 → rowsOf .pframe (startByte ++ a) = ["UNKNOWN"] := by
  decide +kernel

theorem TableRow.unknown (a : Byte) : TableRow.Statement (.unknown a) := fun h _ =>
  rowsOf_unknown a (by simpa [Instr.wellFormed] using h)

/-- A row whose halves are written apart is matched half by half. -/
theorem matches_append (f : Format) (n : String) (ph pl mh ml b c : Byte) :
    OpcodeRow.matches ⟨f, n, ph ++ pl, mh ++ ml⟩ (b ++ c) = (b &&& mh == ph && c &&& ml == pl) := by
  rw [OpcodeRow.matches, BitVec.and_append, Bool.eq_iff_iff]
  simp only [beq_iff_eq, Bool.and_eq_true]
  constructor
  · intro h
    have hh := congrArg (BitVec.extractLsb' 8 8) h
    have hl := congrArg (BitVec.setWidth 8) h
    simp only [BitVec.setWidth_append_eq_right] at hl
    refine ⟨?_, hl⟩
    rw [BitVec.extractLsb'_append_eq_left, BitVec.extractLsb'_append_eq_left] at hh
    exact hh
  · rintro ⟨h1, h2⟩
    rw [h1, h2]

/-- Where byte0 is not 0xFF no row of the protocol frames reads byte1. -/
theorem matches_byte1_free (b c : Byte) (hb : b ≠ 0xFF#8) (r : OpcodeRow) (hr : r ∈ frameRows) :
    r.matches (b ++ c) = r.matches (b ++ 0x00#8) := by
  have hall : ∀ b : Byte, b ≠ 0xFF#8 → (b &&& 0xFF#8 == startByte) = false := by decide +kernel
  rcases List.mem_cons.1 hr with rfl | hr
  · rw [matches_append, matches_append, hall b hb]; simp
  · rcases List.mem_append.1 hr with hr | hr
    · obtain ⟨p, -, rfl⟩ := List.mem_map.1 hr
      rw [unknownRow, matches_append, matches_append, hall b hb]; simp
    · obtain ⟨p, -, rfl⟩ := List.mem_map.1 hr
      rw [resyncRow, matches_append, matches_append]; simp

theorem rowsOf_resync_zero : ∀ b : Byte, b ≠ 0xFF#8 → rowsOf .pframe (b ++ 0x00#8) = ["RESYNC"] := by
  decide +kernel

theorem rowsOf_resync (b c : Byte) (hb : b ≠ 0xFF#8) : rowsOf .pframe (b ++ c) = ["RESYNC"] := by
  have hf : (opcodeTable.filter fun r => r.format == .pframe && r.matches (b ++ c)) =
      opcodeTable.filter fun r => r.format == .pframe && r.matches (b ++ 0x00#8) := by
    refine List.filter_congr fun r hr => ?_
    by_cases hr' : r ∈ frameRows
    · rw [matches_byte1_free b c hb r hr']
    · have : ∀ r ∈ renderRows ++ idleRows, (r.format == .pframe) = false := by decide +kernel
      have hmem : r ∈ renderRows ++ idleRows := by
        simpa [opcodeTable, hr'] using hr
      rw [this r hmem]; rfl
  rw [rowsOf, hf]
  exact rowsOf_resync_zero b hb

theorem TableRow.resync (b : Byte) : TableRow.Statement (.resync b) := fun h byte1 =>
  rowsOf_resync b byte1 (by simpa [Instr.wellFormed] using h)

end Sys2Proof.Laws
end

