-- ==== Sys2Proof/Laws/Step.lean ====
section
/-! SUPPORT. What a step can do, said once for each of its parts. -/

namespace Sys2Proof.Machine

open Sys2Proof.Safety

/-- Every `RENDER.Pk` is `RENDER(m)` with its own mask (41_render section 4). -/
theorem exec_render {i : Instr} (h : isRender i = true) (s : State) : exec i s = s.render (renderMask i) := by
  cases i <;> first | rfl | cases h

/-- What `RENDER(m)` answers (41_render R85, 60_exceptions R142). -/
theorem State.render_cases (m : Byte) (s : State) :
    (popcount m ≠ 1 ∧ s.render m = .next (s.raise (.badMask m))) ∨
    (popcount m = 1 ∧ s.busy = true ∧ s.render m = .next (s.raise (.renderOverrun s.cnt s.rs.mask))) ∨
    (popcount m = 1 ∧ s.busy = false ∧ s.render m = .next (s.startPass m)) := by
  unfold State.render
  split_ifs with hm hb
  · exact .inl ⟨hm, rfl⟩
  · exact .inr (.inl ⟨not_not.1 hm, hb, rfl⟩)
  · exact .inr (.inr ⟨not_not.1 hm, Bool.eq_false_iff.2 hb, rfl⟩)

/-- The two ways a tick begins (40_scheduler R70). -/
theorem State.tickEntry_cases (s : State) :
    (s.busy = true ∧ s.tickEntry = { s with
      t := s.t + 1, fault := some (s.fault.getD (.renderOverrun s.cnt s.rs.mask)) }) ∨
    (s.busy = false ∧ s.tickEntry = { s with
      t := s.t + 1, latch := false, cnt := s.cnt + 1#8,
      out := s.out ++ if s.latch then [(s.t + 1, .latchFall)] else [] }) := by
  cases hb : s.busy
  · refine .inr ⟨rfl, ?_⟩
    have : s.countTick.busy = false := hb
    unfold State.tickEntry
    simp only [this, Bool.false_eq_true, if_false]
    rw [State.latchFall_eq]
    rfl
  · refine .inl ⟨rfl, ?_⟩
    have : s.countTick.busy = true := hb
    unfold State.tickEntry
    simp only [this, if_true]
    rfl

/-- What a step that goes on did: the event of the script, or a `RESET` after a fault (60_exceptions R143). -/
theorem step_next {s s' : State} (h : step s = .next s') :
    (s.fault = none ∧ s.dropLine.performWith exec s.nextLine = .next s') ∨
    (s.fault ≠ none ∧ s.nextLine = .reset ∧ s' = s.dropLine.restart) := by
  unfold step State.stepWith at h
  cases hf : s.fault with
  | none => rw [hf] at h; exact .inl ⟨rfl, h⟩
  | some f =>
    rw [hf] at h
    simp only at h
    split_ifs at h with hl
    injection h with h
    exact .inr ⟨by simp, hl, h.symm⟩

/-- A step without a recorded fault is its event. -/
theorem step_eq {s : State} {l : Line} (h : NextIs s l) : step s = s.dropLine.performWith exec l := by
  unfold step State.stepWith
  rw [h.1, h.2]

/-- What a tick can answer (40_scheduler R70, 30_encoding R62). -/
theorem State.tick0With_next {s s' : State} (h : s.tick0With exec = .next s') :
    (s.tickEntry.fault ≠ none ∧ s' = s.tickEntry) ∨
    (s.tickEntry.fault = none ∧ exec (decodeCnt s.tickEntry.cnt) s.tickEntry = .next s') := by
  unfold State.tick0With at h
  simp only at h
  split_ifs at h with hf
  · injection h with h; exact .inl ⟨Option.isSome_iff_ne_none.1 hf, h.symm⟩
  · exact .inr ⟨by simpa using hf, h⟩

/-- What a move of the handler can answer (43_store_write R127, R128). -/
theorem State.pollWith_next {s s' : State} (h : s.pollWith exec = .next s') :
    (s.timing = .inTime ∧ s.readOnWith exec s.deadline = .next s') ∨
    (s.timing = .tie ∧ (s' = s.drawFree.timeOut ∨ s.drawFree.readOnWith exec (s.deadline + 1) = .next s')) ∨
    (s.timing = .late ∧ s' = s.timeOut) := by
  unfold State.pollWith at h
  split at h
  · exact .inl ⟨by assumption, h⟩
  · refine .inr (.inl ⟨by assumption, ?_⟩)
    split_ifs at h
    · injection h with h; exact .inl h.symm
    · exact .inr h
  · injection h with h; exact .inr (.inr ⟨by assumption, h.symm⟩)

/-- The handler between frames meets no deadline (43_store_write R127 step 1). -/
theorem State.timing_idle {s : State} (h : s.handler.phase = .idle) : s.timing = .inTime := by
  unfold State.timing
  rw [if_pos (.inl h)]

/-- How the timing of a read follows from its deadline (43_store_write R128). -/
theorem State.timing_cases {s : State} (h : s.handler.phase ≠ .idle) :
    (s.timing = .inTime ↔ s.readMoment < s.deadline) ∧ (s.timing = .tie ↔ s.readMoment = s.deadline) ∧
      (s.timing = .late ↔ s.deadline < s.readMoment) := by
  unfold State.timing
  simp only [h, false_or]
  rcases Nat.lt_trichotomy s.readMoment s.deadline with hl | he | hg
  · simp [hl, Nat.ne_of_lt hl, Nat.not_lt_of_lt hl]
  · simp [he]
  · simp [hg, Nat.ne_of_gt hg, Nat.not_lt_of_lt hg]

/-- What reading on can answer: a burst goes on, a frame runs, or a byte is awaited (43_store_write R127). -/
theorem State.readOnWith_next {bound : Nat} {s s' : State} (h : s.readOnWith exec bound = .next s') :
    (∃ len k, s.handler.phase = .data len k ∧
      (s.writesBarred = false ∨ s.readable bound (len.toNat - k) = []) ∧
      s' = (s.setRx (s.handler.rx.drop (s.readable bound (len.toNat - k)).length)).takeData len k
        (s.readable bound (len.toNat - k))) ∨
    (∃ i rest, decodeFrame (s.handler.phase.header ++ s.waiting) = .ok (i, rest) ∧
      exec i (s.setRx (s.handler.rx.drop (s.handler.rx.length - rest.length))) = .next s') ∨
    ∃ e, decodeFrame (s.handler.phase.header ++ s.waiting) = .error e ∧ s' = s.await e := by
  unfold State.readOnWith at h
  split at h
  · obtain ⟨hs, hw⟩ := State.admitWrites_next h
    exact .inl ⟨_, _, by assumption, hw, hs⟩
  · split at h
    · exact .inr (.inl ⟨_, _, by assumption, h⟩)
    · injection h with h
      exact .inr (.inr ⟨_, by assumption, h.symm⟩)

/-- The frame decoder never gives an instruction of the counter decode (30_encoding R58). -/
theorem decodeFrame_not_counter {bytes rest : List Byte} {i : Instr} (h : decodeFrame bytes = .ok (i, rest)) :
    (∃ len data, i = .setColors len data) ∨ (∃ a, i = .unknown a) ∨ ∃ b, i = .resync b := by
  unfold decodeFrame at h
  split at h
  · cases h
  · split_ifs at h
    · injection h with h; injection h with h; exact .inr (.inr ⟨_, h.symm⟩)
    · split at h
      · cases h
      · split_ifs at h
        · injection h with h; injection h with h; exact .inr (.inl ⟨_, h.symm⟩)
        · split at h
          · cases h
          · injection h with h; injection h with h; exact .inl ⟨_, _, h.symm⟩

end Sys2Proof.Machine
end

