-- ==== Sys2Proof/Tests/Slice0.lean ====
section
/-! SUPPORT. Our own tests: one step each, expected results taken from spec/95_test_vectors.md and the worked examples of
the rules, and for every statement with hypotheses a state and operands that meet them. -/

namespace Sys2Proof.Tests

open Sys2Proof Sys2Proof.Config Sys2Proof.Machine Sys2Proof.Safety

/-! ## Ill-formed terms, one for each check -/

theorem test_wf_idle : (Instr.idle 0x04#8).wellFormed = false ∧ (Instr.idle 0x00#8).wellFormed = true := by decide

theorem test_wf_setColors : (Instr.setColors 0x01#8 [0x00#8, 0x00#8]).wellFormed = false ∧
    (Instr.setColors 0x02#8 [0x00#8, 0x00#8]).wellFormed = true := by decide

theorem test_wf_unknown : (Instr.unknown 0xA0#8).wellFormed = false ∧ (Instr.unknown 0xA1#8).wellFormed = true := by
  decide

theorem test_wf_resync : (Instr.resync 0xFF#8).wellFormed = false ∧ (Instr.resync 0xFE#8).wellFormed = true := by
  decide

/-! ## Decoding: words written out from the spec's tables -/

/-- 30_encoding R51: the eight one-hot values. -/
theorem test_decode_renders :
    [0b00000001, 0b00000010, 0b00000100, 0b00001000, 0b00010000, 0b00100000, 0b01000000, 0b10000000].map
      (decodeTableWord 8) =
    [.renderP0, .renderP1, .renderP2, .renderP3, .renderP4, .renderP5, .renderP6, .renderP7].map some := by decide

/-- 95_test_vectors V14: 0x00, 0x03, 0x7F and 0xFF are idle. -/
theorem test_decode_idle :
    [0b00000000, 0b00000011, 0b01111111, 0b11111111].map (decodeTableWord 8) =
    [.idle 0x00#8, .idle 0x03#8, .idle 0x7F#8, .idle 0xFF#8].map some := by decide

/-- 95_test_vectors V14: the headers FF A0, FF 55, FE A0 and A0 FF. -/
theorem test_decode_headers :
    [0b1111111110100000, 0b1111111101010101, 0b1111111010100000, 0b1010000011111111].map (decodeTableWord 16) =
    [.setColors 0x00#8 [], .unknown 0x55#8, .resync 0xFE#8, .resync 0xA0#8].map some := by decide

/-- 95_test_vectors V10 b, with a byte after the frame. -/
theorem test_decode_frame :
    decodeFrame [0xFF#8, 0xA0#8, 0x03#8, 0xAA#8, 0xBB#8, 0xCC#8, 0x01#8] =
      .ok (.setColors 0x03#8 [0xAA#8, 0xBB#8, 0xCC#8], [0x01#8]) := by rfl

/-- 30_encoding R63: 8 + 29 + 17 rows; R51 and R58 give some of them. -/
theorem test_table : opcodeTable.length = 54 ∧ idleRow 7 6 = ⟨.cnt8, "IDLE", 0xC0#16, 0xC0#16⟩ ∧
    idleRow 4 2 = ⟨.cnt8, "IDLE", 0x14#16, 0xFC#16⟩ ∧ unknownRow 7 = ⟨.pframe, "UNKNOWN", 0xFF00#16, 0xFF80#16⟩ ∧
    unknownRow 3 = ⟨.pframe, "UNKNOWN", 0xFFA8#16, 0xFFF8#16⟩ ∧
    resyncRow 7 = ⟨.pframe, "RESYNC", 0x0000#16, 0x8000#16⟩ ∧
    resyncRow 0 = ⟨.pframe, "RESYNC", 0xFE00#16, 0xFF00#16⟩ := by decide

/-! ## Small states -/

/-- The decided parameters with `N = n + 1` sectors. -/
def params (n : Nat) : Params := { Params.initial with lastSector := n }

/-- The same with atomic passes. -/
def atomicParams (n : Nat) : Params := { params n with passAtomic := true }

/-- After reset with `N = n + 1`, the lines `l` to come. -/
def fresh (n : Nat) (l : List Line) : State := { State.resetWith (params n) with script := l }

/-- 95_test_vectors P4: `N = 1`, colour 0x8101FF. -/
def store1 : Memory := [(1, 0x81#8), (2, 0x01#8), (3, 0xFF#8)]

/-- `N = 2` in the first pass, after TICK0 (95_test_vectors P3 step 2). -/
def busy2 (l : List Line) : State :=
  { fresh 1 l with
    cnt := 0x01#8, t := 1, txn := true, out := [(1, .txnBegin)],
    rs := { phase := .busy, mask := 0x01#8, ch := .blue, sec := 1, acc := 0x00#8, nacc := 0#4 } }

/-- A store overrun is recorded (95_test_vectors V12). -/
def faulted (l : List Line) : State := { fresh 1 l with fault := some (.storeOverrun 8 0x01#8) }

/-- The handler in a phase that it entered at time 0, with bytes waiting that came at time `now`, the lines `l` to come,
`N = 2`. -/
def handling (p : HandlerPhase) (rx : List Byte) (now : Nat) (l : List Line) : State :=
  { fresh 1 l with
    handler := { phase := p, rx := rx.map fun b => { byte := b, time := now }, tx := [], now := now, began := 0 } }

/-- `N = 2` after the first micro-step of a pass that is atomic. -/
def insideAtomic (l : List Line) : State :=
  { State.resetWith (atomicParams 1) with
    script := l, cnt := 0x01#8,
    rs := { phase := .busy, mask := 0x01#8, ch := .blue, sec := 0, acc := 0x00#8, nacc := 1#4 } }

/-- What a test looks at: a field of the next state. -/
def after {α : Type} (f : State → α) : Result → Option α
  | .next s => some (f s)
  | _ => none

/-! ## The operations -/

/-- 95_test_vectors V1: the counter wraps. -/
theorem test_inc_wraps : ({ fresh 0 [] with cnt := 0xFF#8 }).inc.cnt = 0x00#8 := by decide

/-- 20_memory R33: `WR(3, 0x80)` under `DOC`. -/
theorem test_write_blue : ((fresh 0 []).write 3 0x80#8).readByte (channelAddr (params 0) 0 .blue) = some 0x80#8 := by
  decide

/-- 95_test_vectors V4: addresses under both layouts. -/
theorem test_addresses :
    channelAddr (params 7) 6 .blue = 27 ∧ channelAddr { params 7 with storeLayout := .le } 6 .blue = 24 ∧
    channelAddr (params 7) 0 .red = 1 ∧ channelAddr { params 7 with storeLayout := .le } 7 .green = 29 := by decide

/-- 41_render R89: the worked example of `PACK`, and 95_test_vectors V5 for `RIGHT`. -/
theorem test_pack : packBit .left true 0b01100000#8 3 = 0b01110000#8 ∧ packBit .right true 0x16#8 6 = 0x2D#8 ∧
    packBit .right false 0x16#8 5 = 0x2C#8 := by decide

/-- 95_test_vectors V8 a: `SHIFT(0x74)` bit by bit. -/
theorem test_bits : bitsMsbFirst 0x74#8 = [false, true, true, true, false, true, false, false] := by decide

/-- 95_test_vectors V8 c: positions for `N = 12`. -/
theorem test_positions : chainPosition (params 11) 4 .blue = 40 ∧ chainPosition (params 11) 0 .red = 4 ∧
    chainPosition { params 11 with partialAlign := .right } 3 .blue = 35 ∧
    streamIndex { params 11 with partialAlign := .right } 0 .green = 31 ∧ streamIndex (params 11) 3 .red = 40 := by
  decide

/-- 95_test_vectors V7 d: the frames of planes 0 and 7 for `N = 1`, colour 0x0180FF. -/
theorem test_frame :
    frame (params 0) [(1, 0x01#8), (2, 0x80#8), (3, 0xFF#8)] 0x01#8 = [0x80#8, 0x00#8, 0x80#8] ∧
    frame { params 0 with partialAlign := .right } [(1, 0x01#8), (2, 0x80#8), (3, 0xFF#8)] 0x80#8 =
      [0x01#8, 0x01#8, 0x00#8] := by decide

/-- 95_test_vectors V9 b. -/
theorem test_onTime : onTime 0x7F#8 = 127 ∧ onTime 0x80#8 = 129 ∧ onTime 0xFF#8 = 256 := by decide

/-! ## One step -/

/-- 95_test_vectors P4, tick 128: `TB, SH 80, SH 00, SH 80, TE, LR`. -/
theorem test_tick_renders_plane7 :
    after State.out (step { fresh 0 [.tick] with store := store1, cnt := 0x7F#8, t := 127 }) =
      some [(128, .txnBegin), (128, .shift 0x80#8), (128, .shift 0x00#8), (128, .shift 0x80#8), (128, .txnEnd),
        (128, .latchRise)] := by decide

/-- 95_test_vectors V3 b: tick 5 begins with `LF` and renders plane 1. -/
theorem test_tick_after_pass :
    after State.out (step { fresh 0 [.tick] with cnt := 0x01#8, t := 4, latch := true }) =
      some [(5, .latchFall), (5, .txnBegin), (5, .shift 0x00#8), (5, .shift 0x00#8), (5, .shift 0x00#8),
        (5, .txnEnd), (5, .latchRise)] := by decide

/-- 95_test_vectors V3 b: tick 3, the wrap, is idle and emits nothing. -/
theorem test_tick_idle_at_zero :
    after (fun s => (s.out, s.cnt)) (step { fresh 0 [.tick] with cnt := 0xFF#8 }) = some ([], 0x00#8) := by decide

/-- 95_test_vectors P3 step 8: `RD(3) = 0xFF`, `SH 40`. -/
theorem test_rstep_flushes :
    after State.out (step { busy2 [.rstep] with
      store := [(1, 0xFF#8), (2, 0xFF#8), (3, 0xFF#8)], rs := { (busy2 []).rs with sec := 0, nacc := 1#4 } }) =
      some [(1, .txnBegin), (1, .shift 0x40#8)] := by decide

/-- 95_test_vectors P3 step 16: the last micro-step, `SH C0, TE, LR`. -/
theorem test_rstep_commits :
    after (fun s => (s.out, s.latch, s.busy)) (step { busy2 [.rstep] with
      store := [(1, 0xFF#8)], rs := { (busy2 []).rs with ch := .red, sec := 0, acc := 0x80#8, nacc := 1#4 } }) =
      some ([(1, .txnBegin), (1, .shift 0xC0#8), (1, .txnEnd), (1, .latchRise)], true, false) := by decide

/-- 95_test_vectors V12, the first row. -/
theorem test_overrun :
    after (fun s => (s.fault, s.cnt)) (step (busy2 [.tick0])) =
      some (some (.renderOverrun 0x01#8 0x01#8), 0x01#8) := by decide

/-- 95_test_vectors V12: the direct call `RENDER(0x03)`. -/
theorem test_badMask :
    after (fun s => (s.fault, s.out)) ((fresh 1 []).render 0x03#8) = some (some (.badMask 0x03#8), []) := by decide

/-- 95_test_vectors P5 frame 1. -/
theorem test_setColors :
    after (fun s => (s.store, s.handler.tx))
      (step (handling .idle [0xFF#8, 0xA0#8, 0x04#8, 0x00#8, 0x11#8, 0x22#8, 0x33#8] 0 [.poll])) =
      some ([(1, 0x11#8), (2, 0x22#8), (3, 0x33#8)], [0xFF#8]) := by decide

/-- 95_test_vectors V10 g: the ninth byte overruns, and no status is sent. -/
theorem test_setColors_overruns :
    after (fun s => (s.store.length, s.fault, s.handler.tx))
      (exec (.setColors 0x09#8 [1, 2, 3, 4, 5, 6, 7, 8, 9]) (fresh 1 [])) =
      some (8, some (.storeOverrun 8 0x09#8), []) := by decide

/-- 95_test_vectors V10 e: the prefix stays, 0xE0 is sent. -/
theorem test_timeout :
    after (fun s => (s.store, s.handler.tx, s.handler.phase))
      (step { handling (.data 0x08#8 3) [] 1001 [.poll] with store := [(1, 0xFF#8), (2, 0xFF#8)] }) =
      some ([(1, 0xFF#8), (2, 0xFF#8)], [0xE0#8], .idle) := by decide

/-- 95_test_vectors E11: data bytes spread over more than READ_TIMEOUT stop the burst, also where the late one waits. -/
theorem test_late_byte :
    after (fun s => (s.store, s.handler.tx, s.handler.phase))
      (step (handling (.data 0x08#8 7) [0x55#8] 1001 [.poll])) = some ([], [0xE0#8], .idle) := by decide

/-- 20_memory R47 and 95_test_vectors V12: in an atomic pass `RSTEP` goes on and a tick overruns; a write is not
admitted. -/
theorem test_inside_atomic :
    after (fun s => (s.rs.ch, s.rs.sec)) (step (insideAtomic [.rstep])) = some (.green, 1) ∧
    after State.fault (step (insideAtomic [.tick])) = some (some (.renderOverrun 0x01#8 0x01#8)) ∧
    step (insideAtomic [.wr 0 0x01#8]) = .refused .writeInsidePass := by
  refine ⟨by decide, by decide, by rfl⟩

/-- 95_test_vectors P5 frame 2. -/
theorem test_unknown :
    after (fun s => (s.store, s.handler.tx)) (step (handling .idle [0xFF#8, 0x55#8] 0 [.poll])) =
      some ([], [0xE1#8]) := by decide

/-- 95_test_vectors P5 frame 3. -/
theorem test_resync :
    after (fun s => (s.store, s.handler.tx)) (step (handling .idle [0x12#8] 0 [.poll])) = some ([], []) := by decide

/-- 95_test_vectors V13 b: `RESET` in the middle of a pass. -/
theorem test_reset_mid_pass :
    after (fun s => (s.store.length, s.cnt, s.busy, s.out.length, s.t))
      (step { busy2 [.reset] with store := [(1, 0x01#8)] }) = some (0, 0x00#8, false, 0, 0) := by decide

/-- 70_reset_and_hazards R166: with nothing placed, the first step from reset is the tick that starts plane 0. -/
theorem test_first_step :
    after (fun s => (s.t, s.cnt, s.busy, s.out)) (step State.reset) = some (1, 0x01#8, true, [(1, .txnBegin)]) := by
  decide

/-- A placed word runs next: `RENDER.P5`, and the header of an empty `SETCOLORS` frame. -/
theorem test_placed :
    after (fun s => (s.cnt, s.rs.mask)) (step (State.reset.withFetchWord 8 0x20)) = some (0x20#8, 0x20#8) ∧
    after (fun s => s.handler.tx) (step (State.reset.withFetchWord 16 0xFFA0)) = some [0xFF#8] := by decide

/-! ## Witnesses: what meets the hypotheses of the statements -/

theorem witness_EncodeThenDecode : (Instr.setColors 0xFF#8 [0x01#8]).wellFormed = true := by decide

theorem witness_DecodeThenEncode : decode .pframe [0xFF#8, 0xA0#8, 0x01#8, 0x07#8, 0x08#8] =
    .ok (.setColors 0x01#8 [0x07#8], [0x08#8]) := by rfl

theorem witness_OnlyMissingBytesFailToDecode : decode .cnt8 [] = .error .noInput ∧
    decode .pframe [0xFF#8] = .error .noAction ∧ decode .pframe [0xFF#8, 0xA0#8] = .error .noLength := ⟨rfl, rfl, rfl⟩

theorem witness_CounterDecode : popcount 0x80#8 = 1 ∧ popcount 0x00#8 ≠ 1 ∧ popcount 0xFF#8 ≠ 1 := by decide

theorem witness_TickRunsDecodedCounter : NextIs (fresh 0 [.tick0]) .tick0 ∧ (fresh 0 [.tick0]).busy = false :=
  ⟨⟨rfl, rfl⟩, rfl⟩

/-- With an empty script the default event is a tick. -/
theorem witness_default_tick : NextIs State.reset .tick0 := ⟨rfl, rfl⟩

theorem witness_PollRunsDecodedFrame :
    let s := handling .action [0xA0#8, 0x01#8, 0x05#8, 0x06#8] 999 [.poll]
    NextIs s .poll ∧ s.timing = .inTime ∧ (∀ len k, s.handler.phase ≠ .data len k) ∧
      decode .pframe (s.handler.phase.header ++ s.waiting) = .ok (.setColors 0x01#8 [0x05#8], [0x06#8]) :=
  ⟨⟨rfl, rfl⟩, rfl, (fun _ _ h => nomatch h), rfl⟩

theorem witness_PlacedWordRunsNext : decodeTableWord 8 0xFF = some (.idle 0xFF#8) ∧
    decodeTableWord 16 0x12A0 = some (.resync 0x12#8) := by decide

theorem witness_CounterWrites : (∃ s', step { fresh 0 [.reset] with cnt := 0x05#8 } = .next s') ∧
    (∃ s', step { fresh 0 [.tick0] with cnt := 0xFF#8 } = .next s') ∧ (∃ s', step (busy2 [.tick]) = .next s') ∧
    ∃ s', step (busy2 [.rstep]) = .next s' := ⟨⟨_, rfl⟩, ⟨_, rfl⟩, ⟨_, rfl⟩, _, rfl⟩

theorem witness_IdleTick : NextIs { fresh 0 [.tick] with cnt := 0xFF#8, latch := true } .tick ∧
    (fresh 0 [.tick]).busy = false ∧ popcount (0xFF#8 + 1#8) ≠ 1 := ⟨⟨rfl, rfl⟩, rfl, by decide⟩

theorem witness_TickDuringPassOverruns : NextIs (busy2 [.tick0]) .tick0 ∧ (busy2 [.tick0]).busy = true :=
  ⟨⟨rfl, rfl⟩, rfl⟩

theorem witness_FaultIsSticky : (faulted [.reset]).fault = some (.storeOverrun 8 0x01#8) ∧
    (∃ s', step (faulted [.reset]) = .next s') ∧ (faulted [.reset]).nextLine = .reset ∧ (fresh 1 []).fault = none :=
  ⟨rfl, ⟨_, rfl⟩, rfl, rfl⟩

theorem witness_StopsAfterFault : (faulted [.tick]).fault = some (.storeOverrun 8 0x01#8) ∧
    (faulted [.tick]).nextLine ≠ .reset := ⟨rfl, by decide⟩

theorem witness_ScheduleKept : ScheduleInv (fresh 0 [.tick]) ∧ ∃ s', step (fresh 0 [.tick]) = .next s' :=
  ⟨fun _ => by decide, _, rfl⟩

theorem witness_OnlyTicksStartPasses :
    (∃ s', step (fresh 0 [.tick0]) = .next s' ∧ (fresh 0 [.tick0]).busy = false ∧ s'.busy = true) ∧
    (∃ s', step State.reset = .next s' ∧
      ∃ more n, s'.out = State.reset.out ++ more ∧ (n, Event.txnBegin) ∈ more) := by
  refine ⟨⟨_, rfl, rfl, rfl⟩, _, rfl, _, 1, rfl, ?_⟩
  decide

theorem witness_RenderStartsPass : isRender .renderP7 = true ∧ (fresh 0 []).busy = false := ⟨rfl, rfl⟩

theorem witness_RenderWholePass : isRender .renderP0 = true ∧ (State.resetWith (atomicParams 8)).busy = false ∧
    (fresh 8 []).busy = false := ⟨rfl, rfl, rfl⟩

theorem witness_RenderingTick : NextIs { fresh 0 [.tick] with cnt := 0x7F#8 } .tick ∧
    (fresh 0 [.tick]).busy = false ∧ popcount (0x7F#8 + 1#8) = 1 := ⟨⟨rfl, rfl⟩, rfl, by decide⟩

theorem witness_RenderOutsideTheGate : isRender .renderP3 = true ∧ (busy2 []).busy = true ∧ popcount 0x00#8 ≠ 1 ∧
    (∃ s', step (busy2 [.tick]) = .next s') ∧ (busy2 [.tick]).fault ≠ some (.badMask 0x03#8) :=
  ⟨rfl, rfl, by decide, ⟨_, rfl⟩, by decide⟩

theorem witness_MicroStepPacks : NextIs (busy2 [.rstep]) .rstep ∧ (busy2 [.rstep]).busy = true ∧
    (busy2 []).rs.sec < (busy2 []).params.numSectors ∧ (busy2 []).rs.nacc ≠ 7#4 ∧ (busy2 []).rs.sec ≠ 0 :=
  ⟨⟨rfl, rfl⟩, rfl, by decide, by decide, by decide⟩

/-- A flush with seven bits there, and one at sector 0 that moves on to the next channel. -/
theorem witness_MicroStepFlushes :
    let s := { busy2 [.rstep] with rs := { (busy2 []).rs with nacc := 7#4 } }
    let s0 := { busy2 [.rstep] with rs := { (busy2 []).rs with sec := 0, nacc := 1#4 } }
    (NextIs s .rstep ∧ s.busy = true ∧ s.rs.sec < s.params.numSectors ∧ s.rs.nacc = 7#4 ∧
      nextPair s.params s.rs.ch s.rs.sec = some (.blue, 0)) ∧
    (NextIs s0 .rstep ∧ s0.busy = true ∧ s0.rs.sec < s0.params.numSectors ∧ s0.rs.sec = 0 ∧
      nextPair s0.params s0.rs.ch s0.rs.sec = some (.green, 1)) :=
  ⟨⟨⟨rfl, rfl⟩, rfl, by decide, rfl, rfl⟩, ⟨rfl, rfl⟩, rfl, by decide, rfl, rfl⟩

theorem witness_LastMicroStepCommits :
    let s := { busy2 [.rstep] with rs := { (busy2 []).rs with ch := .red, sec := 0, nacc := 1#4 } }
    NextIs s .rstep ∧ s.busy = true ∧ s.rs.sec < s.params.numSectors ∧ nextPair s.params s.rs.ch s.rs.sec = none :=
  ⟨⟨rfl, rfl⟩, rfl, by decide, rfl⟩

theorem witness_MicroStepNeedsBusy : NextIs (fresh 0 [.rstep]) .rstep ∧ (fresh 0 [.rstep]).busy = false :=
  ⟨⟨rfl, rfl⟩, rfl⟩

theorem witness_PackPlacesBit : (0x80#8).getLsbD (7 - 7) = false ∧ (7 : Nat) ≤ 7 ∧
    ([true, false, true, true, false, false, true, false] : List Bool).length = 8 := by decide

/-- `N = 12`: byte 1 of a channel has four used bits, at positions 7 to 4, and position 0 is none of them. -/
theorem witness_FrameByteBits : 1 < (params 11).chBytes ∧ 3 < usedBits (params 11) 1 ∧
    ∀ i, i < usedBits (params 11) 1 → bitPosition (params 11).partialAlign (usedBits (params 11) 1) i ≠ 0 := by
  decide

theorem witness_StreamPlacesSectors : 11 < (params 11).numSectors := by decide

/-- `N = 1`, both values of `PASS_ATOMIC`: position 0 of the chain carries no sector. -/
theorem witness_ChainPlacesSectors :
    let s := fresh 0 [.tick]
    let a := { State.resetWith (atomicParams 0) with script := [.tick] }
    (NextIs s .tick ∧ s.busy = false ∧ popcount (s.cnt + 1#8) = 1 ∧ s.chain.sh.length = s.params.frameBits) ∧
    (NextIs a .tick ∧ a.busy = false ∧ popcount (a.cnt + 1#8) = 1 ∧ a.chain.sh.length = a.params.frameBits) ∧
    0 < s.params.numSectors ∧ 0 < s.params.frameBits ∧
      ∀ sec ch, sec < s.params.numSectors → chainPosition s.params sec ch ≠ 0 := by
  refine ⟨⟨⟨rfl, rfl⟩, rfl, by decide, rfl⟩, ⟨⟨rfl, rfl⟩, rfl, by decide, rfl⟩, by decide, by decide,
    fun sec ch h => ?_⟩
  have : sec = 0 := Nat.lt_one_iff.1 h
  subst this
  cases ch <;> decide

/-- Two stores that differ in the padding byte of the only sector. -/
theorem witness_PassIgnoresPaddingAndHistory :
    let s := fresh 0 []
    isRender .renderP1 = true ∧ s.busy = false ∧ Sequencer.reset.phase = .idle ∧
      (∀ sec ch, sec < s.params.numSectors →
        Memory.read [(0, 0xAA#8)] (channelAddr s.params sec ch) = s.store.read (channelAddr s.params sec ch)) := by
  refine ⟨rfl, rfl, rfl, fun sec ch h => ?_⟩
  have : sec = 0 := Nat.lt_one_iff.1 h
  subst this
  cases ch <;> decide

/-- The state in the first pass meets the invariant, and a micro-step of it goes on. -/
theorem witness_PassInvariantKept : PassInv (busy2 [.rstep]) ∧ ∃ s', step (busy2 [.rstep]) = .next s' :=
  ⟨⟨by decide, by decide, fun _ _ => BitVec.getLsbD_zero, fun _ => ⟨by decide, rfl, rfl, rfl⟩, rfl, rfl, by decide,
    by decide, by decide⟩, _, rfl⟩

theorem witness_NoReadOutsideStore : PassInv (busy2 [.rstep]) ∧ (busy2 [.rstep]).fault = none :=
  ⟨witness_PassInvariantKept.1, rfl⟩

/-- A micro-step of a pass; a tick, and a frame with no data, inside an atomic pass. -/
theorem witness_EveryEventIsTaken :
    (PassInv (busy2 [.rstep]) ∧ (busy2 [.rstep]).fault = none ∧
      ((busy2 [.rstep]).nextLine = .rstep → (busy2 [.rstep]).busy = true) ∧
      (nextWrites (busy2 [.rstep]) = true → (busy2 [.rstep]).writesBarred = false)) ∧
    (PassInv { insideAtomic [.tick] with txn := true, out := [(1, .txnBegin)] } ∧
      nextWrites (insideAtomic [.tick]) = false ∧ nextWrites (insideAtomic [.setColors []]) = false) ∧
    (State.resetWith (atomicParams 1)).busy = false ∧
    (let s := insideAtomic [.wr 0 0x01#8]
     NextIs s (.wr 0 0x01#8) ∧ s.params.passAtomic = true ∧ s.busy = true ∧ s.rs.sec ≤ s.params.lastSector ∧
       s.rs.sec ≠ s.params.lastSector) :=
  ⟨⟨witness_PassInvariantKept.1, rfl, fun _ => rfl, fun _ => rfl⟩,
    ⟨⟨by decide, by decide, fun _ _ => BitVec.getLsbD_zero, fun _ => ⟨by decide, rfl, by decide, rfl⟩, rfl, rfl,
      by decide, by decide, by decide⟩, rfl, rfl⟩,
    rfl, ⟨rfl, rfl⟩, rfl, rfl, by decide, by decide⟩

/-- What is refused inside an atomic pass: a line with data, a frame with data, a data byte of an open frame; and an
event that is not. -/
theorem witness_EveryEventIsTaken_refused :
    let w (rx : List Byte) (p : HandlerPhase) :=
      { insideAtomic [.poll] with handler := (handling p rx 0 []).handler }
    nextWrites (insideAtomic [.setColors [0x01#8]]) = true ∧ (insideAtomic []).writesBarred = true ∧
      nextWrites (w [0xFF#8, 0xA0#8, 0x01#8, 0x07#8] .idle) = true ∧ nextWrites (w [0x07#8] (.data 0x01#8 0)) = true ∧
      nextWrites (w [0xFF#8, 0x55#8] .idle) = false ∧ (w [0x07#8] (.data 0x01#8 0)).writesBarred = true ∧
      (insideAtomic [.setColors [0x01#8]]).fault = none ∧ ∃ s', step (insideAtomic [.rstep]) = .next s' :=
  ⟨rfl, by decide, by decide, by decide, by decide, by decide, rfl, _, rfl⟩

theorem witness_ChannelAddresses : 11 < (params 11).numSectors ∧ 0 < (params 11).numSectors ∧
    channelAddr (params 11) 11 .blue = channelAddr (params 11) 11 .blue := by decide

/-- The last address of the store and the first beyond it, `N = 2` (95_test_vectors V12). -/
theorem witness_WriteByte :
    (StoreInv (fresh 1 [.wr 7 0x01#8]) ∧ NextIs (fresh 1 [.wr 7 0x01#8]) (.wr 7 0x01#8) ∧
      (fresh 1 [.wr 7 0x01#8]).writesBarred = false ∧ 7 < (fresh 1 []).params.storeBytes) ∧
    (NextIs (fresh 1 [.wr 8 0x01#8]) (.wr 8 0x01#8) ∧ (fresh 1 [.wr 8 0x01#8]).writesBarred = false ∧
      (fresh 1 []).params.storeBytes ≤ 8) ∧
    StoreInv (fresh 1 []) ∧ (fresh 1 []).params.storeLayout = .doc :=
  ⟨⟨⟨rfl, rfl⟩, ⟨rfl, rfl⟩, rfl, by decide⟩, ⟨⟨rfl, rfl⟩, rfl, by decide⟩, ⟨rfl, rfl⟩, rfl⟩

/-- A line that fills the store exactly, and one byte more. -/
theorem witness_ScriptSetColorsWrites :
    (let d : List Byte := [1, 2, 3, 4, 5, 6, 7, 8]
     StoreInv (fresh 1 [.setColors d]) ∧ NextIs (fresh 1 [.setColors d]) (.setColors d) ∧
       (fresh 1 [.setColors d]).writesBarred = false ∧ d.length ≤ (fresh 1 []).params.storeBytes) ∧
    (let d : List Byte := [1, 2, 3, 4, 5, 6, 7, 8, 9]
     StoreInv (fresh 1 [.setColors d]) ∧ NextIs (fresh 1 [.setColors d]) (.setColors d) ∧
       (fresh 1 [.setColors d]).writesBarred = false ∧ (fresh 1 []).params.storeBytes < d.length) :=
  ⟨⟨⟨rfl, rfl⟩, ⟨rfl, rfl⟩, rfl, by decide⟩, ⟨rfl, rfl⟩, ⟨rfl, rfl⟩, rfl, by decide⟩

theorem witness_RewriteChangesNothing :
    StoreInv { fresh 1 [] with store := [(7, 0x01#8)] } ∧ 7 < (fresh 1 []).params.storeBytes :=
  ⟨⟨rfl, rfl⟩, by decide⟩

theorem witness_StoreInvariantKept : StoreInv (fresh 1 [.wr 7 0x01#8]) ∧
    ∃ s', step (fresh 1 [.wr 7 0x01#8]) = .next s' := ⟨⟨rfl, rfl⟩, _, rfl⟩

theorem witness_OnlyWriterChangesStore :
    ∃ s', step (fresh 1 [.wr 7 0x01#8]) = .next s' ∧ (fresh 1 [.wr 7 0x01#8]).store ≠ s'.store :=
  ⟨_, rfl, by decide⟩

theorem witness_WriteCommutesWithMicroStep : (busy2 []).busy = true ∧ (busy2 []).rs.sec < (busy2 []).params.numSectors ∧
    0 < (busy2 []).params.storeBytes ∧ 0 ≠ channelAddr (busy2 []).params (busy2 []).rs.sec (busy2 []).rs.ch := by decide

theorem witness_WriteCommutesWithTick : (fresh 1 []).fault = none ∧ (fresh 1 []).busy = false ∧
    7 < (fresh 1 []).params.storeBytes := by decide

/-- A frame that fills the store exactly (95_test_vectors V10 a), and the empty one (c). -/
theorem witness_SetColorsWritesStore :
    let d : List Byte := [0x00#8, 0x10#8, 0x20#8, 0x30#8, 0x00#8, 0x40#8, 0x50#8, 0x60#8]
    StoreInv (fresh 1 []) ∧ d.length = (0x08#8).toNat ∧ (0x08#8).toNat ≤ (fresh 1 []).params.storeBytes ∧
      (fresh 1 []).fault = none ∧ (fresh 1 []).writesBarred = false ∧ ([] : List Byte).length = (0x00#8).toNat ∧
      (insideAtomic []).writesBarred = true ∧ StoreInv (insideAtomic []) ∧ (insideAtomic []).fault = none :=
  ⟨⟨rfl, rfl⟩, rfl, by decide, rfl, rfl, rfl, by decide, ⟨rfl, rfl⟩, rfl⟩

theorem witness_SetColorsWritesPrefix :
    let d : List Byte := [0x00#8, 0xFF#8, 0xFF#8]
    StoreInv (fresh 1 []) ∧ d.length < (0x08#8).toNat ∧ d.length ≤ (fresh 1 []).params.storeBytes ∧
      (fresh 1 []).fault = none ∧ (fresh 1 []).writesBarred = false := ⟨⟨rfl, rfl⟩, by decide, by decide, rfl, rfl⟩

/-- 95_test_vectors V10 g: Length 9, capacity 8. -/
theorem witness_SetColorsOverruns :
    let d : List Byte := [1, 2, 3, 4, 5, 6, 7, 8, 9]
    StoreInv (fresh 1 []) ∧ d.length ≤ (0x09#8).toNat ∧ (fresh 1 []).params.storeBytes < d.length ∧
      (fresh 1 []).fault = none ∧ (fresh 1 []).writesBarred = false := ⟨⟨rfl, rfl⟩, by decide, by decide, rfl, rfl⟩

/-- The last byte of the store comes in time; and with Length 9, the last byte of it and one more (`N = 2`). -/
theorem witness_BurstGoesOn :
    (let s := handling (.data 0x08#8 7) [0x55#8] 999 [.poll]
     StoreInv s ∧ NextIs s .poll ∧ s.writesBarred = false ∧ s.handler.phase = .data 0x08#8 7 ∧ 7 < (0x08#8).toNat ∧
       s.timing = .inTime ∧
       (s.handler.rx.takeWhile fun b => b.time < s.handler.began + s.params.readTimeout).length = 1 ∧
       min (0x08#8).toNat (7 + 1) ≤ s.params.storeBytes) ∧
    (let s := handling (.data 0x09#8 7) [0x55#8, 0x66#8] 999 [.poll]
     StoreInv s ∧ NextIs s .poll ∧ s.writesBarred = false ∧ s.handler.phase = .data 0x09#8 7 ∧ 7 < (0x09#8).toNat ∧
       s.timing = .inTime ∧
       (s.handler.rx.takeWhile fun b => b.time < s.handler.began + s.params.readTimeout).length = 2 ∧
       7 ≤ s.params.storeBytes ∧ s.params.storeBytes < min (0x09#8).toNat (7 + 2)) :=
  ⟨⟨⟨rfl, rfl⟩, ⟨rfl, rfl⟩, rfl, rfl, by decide, by decide, by decide, by decide⟩,
    ⟨rfl, rfl⟩, ⟨rfl, rfl⟩, rfl, rfl, by decide, by decide, by decide, by decide, by decide⟩

/-- No byte at 1001; a byte at 1001; and the tie at 1000, with a byte and without. -/
theorem witness_DeadlineSendsTimeout :
    (let s := handling .action [] 1001 [.poll]
     NextIs s .poll ∧ s.handler.phase ≠ .idle ∧
       (∀ b, s.handler.rx.head? = some b → s.handler.began + s.params.readTimeout < b.time) ∧
       s.handler.began + s.params.readTimeout < s.handler.now) ∧
    (let s := handling .action [0xA0#8] 1001 [.poll]
     NextIs s .poll ∧ s.handler.phase ≠ .idle ∧
       (∀ b, s.handler.rx.head? = some b → s.handler.began + s.params.readTimeout < b.time) ∧ s.handler.rx ≠ []) ∧
    (let s := handling .action [0xA0#8] 1000 [.poll]
     NextIs s .poll ∧ s.handler.phase ≠ .idle ∧
       (∀ b, s.handler.rx.head? = some b → b.time = s.handler.began + s.params.readTimeout) ∧ s.handler.rx ≠ []) ∧
    (let s := handling .action [] 1000 [.poll]
     NextIs s .poll ∧ s.handler.phase ≠ .idle ∧
       (∀ b, s.handler.rx.head? = some b → b.time = s.handler.began + s.params.readTimeout) ∧
       s.handler.now = s.handler.began + s.params.readTimeout) := by
  refine ⟨⟨⟨rfl, rfl⟩, by decide, fun b h => (by cases h), by decide⟩,
    ⟨⟨rfl, rfl⟩, by decide, fun b h => (by cases h; decide), by decide⟩,
    ⟨⟨rfl, rfl⟩, by decide, fun b h => (by cases h; decide), by decide⟩,
    ⟨rfl, rfl⟩, by decide, fun b h => (by cases h), by decide⟩

theorem witness_HandlerWaitsForHeader :
    (let s := handling .idle [0xFF#8] 0 [.poll]
     NextIs s .poll ∧ s.handler.phase = .idle ∧ s.waiting = [0xFF#8]) ∧
    (let s := handling .idle [0xFF#8, 0xA0#8] 0 [.poll]
     NextIs s .poll ∧ s.handler.phase = .idle ∧ s.waiting = [0xFF#8, 0xA0#8]) ∧
    (let s := handling .action [0xA0#8] 999 [.poll]
     NextIs s .poll ∧ s.timing = .inTime ∧ s.handler.phase = .action ∧ s.waiting = [0xA0#8]) ∧
    (let s := handling .length [] 999 [.poll]
     NextIs s .poll ∧ s.timing = .inTime ∧ s.handler.rx = [] ∧ s.handler.phase = .length) :=
  ⟨⟨⟨rfl, rfl⟩, rfl, rfl⟩, ⟨⟨rfl, rfl⟩, rfl, rfl⟩, ⟨⟨rfl, rfl⟩, by decide, rfl, rfl⟩, ⟨rfl, rfl⟩, by decide, rfl, rfl⟩

theorem witness_BurstIsIdempotent : StoreInv (fresh 1 []) ∧ (fresh 1 []).writesBarred = false := ⟨⟨rfl, rfl⟩, rfl⟩

theorem witness_HandlerInvariantKept : HandlerInv (handling (.data 0x08#8 7) [0x55#8] 0 [.poll]) ∧
    ∃ s', step (handling (.data 0x08#8 7) [0x55#8] 0 [.poll]) = .next s' := by
  refine ⟨⟨fun len k h => ?_, by decide, by decide, rfl⟩, _, rfl⟩
  cases h
  decide

theorem witness_PolledContextFrame : polledLine (handling .idle [0xFF#8, 0x55#8] 0 [.poll]).nextLine = true ∧
    ∃ s', step (handling .idle [0xFF#8, 0x55#8] 0 [.poll]) = .next s' := ⟨rfl, _, rfl⟩

theorem witness_PeriodicContextFrame : periodicLine (busy2 [.rstep]).nextLine = true ∧
    ∃ s', step (busy2 [.rstep]) = .next s' := ⟨rfl, _, rfl⟩

theorem witness_ArrivalAndTime : NextIs (fresh 0 [.rx 0xFF#8]) (.rx 0xFF#8) ∧
    NextIs (fresh 0 [.elapse 0]) (.elapse 0) := ⟨⟨rfl, rfl⟩, rfl, rfl⟩

theorem witness_ResetFromAnyState : (busy2 [.reset]).nextLine = .reset ∧ (faulted [.reset]).nextLine = .reset :=
  ⟨rfl, rfl⟩

/-- A rendering tick and an idle one that meet what the first clause asks, before any plane is shown. -/
theorem witness_HoldsAndOnTime :
    (NextIs (fresh 0 [.tick]) .tick ∧ (fresh 0 [.tick]).busy = false ∧
      (fresh 0 [.tick]).chain.sh.length = (fresh 0 [.tick]).params.frameBits ∧
      popcount ((fresh 0 [.tick]).cnt + 1#8) = 1) ∧
    (let s := { fresh 0 [.tick] with cnt := 0x02#8 }
     NextIs s .tick ∧ s.busy = false ∧ s.chain.sh.length = s.params.frameBits ∧ popcount (s.cnt + 1#8) ≠ 1 ∧
       ShowsPlane s) ∧ (7 : Nat) < 8 := by
  refine ⟨⟨⟨rfl, rfl⟩, rfl, rfl, by decide⟩, ⟨⟨rfl, rfl⟩, rfl, rfl, by decide, fun sec ch h => ?_⟩, by decide⟩
  have : sec = 0 := Nat.lt_one_iff.1 h
  subst this
  cases ch <;> decide

theorem witness_ParamsFixedTraceGrows : (∃ s', step (busy2 [.reset]) = .next s') ∧
    ∃ s', step (busy2 [.rstep]) = .next s' := ⟨⟨_, rfl⟩, _, rfl⟩

end Sys2Proof.Tests
end

section
/-! What a step keeps, said once for each kind of event: the polled lines move only the store, the fault record and
the handler, the periodic ones never the store, the handler or the script, and both only append to the trace. -/

namespace Sys2Proof.Machine

open Sys2Proof.Config Sys2Proof.Safety

/-! ## The polled lines -/

/-- `s'` differs from `s` at most in what the polled context moves: the store, the fault record, the handler, the
script and the free values drawn (60_exceptions R145). -/
def PolledFrame (s s' : State) : Prop :=
  s' = { s with
    store := s'.store, fault := s'.fault, handler := s'.handler, script := s'.script, freeCtr := s'.freeCtr }

theorem PolledFrame.trans {a b c : State} (h : PolledFrame a b) (h' : PolledFrame b c) : PolledFrame a c := by
  unfold PolledFrame at h h' ⊢
  exact h'.trans (by rw [h])

theorem State.dropLine_polledFrame (s : State) : PolledFrame s s.dropLine := rfl

theorem State.write_polledFrame (a : Nat) (v : Byte) (s : State) : PolledFrame s (s.write a v) := by
  unfold PolledFrame
  rw [State.write_frame]

theorem burst_polledFrame (k : Nat) (ds : List Byte) (s : State) : PolledFrame s (burst k ds s) := by
  unfold PolledFrame
  rw [burst_frame]

theorem State.await_polledFrame (e : DecodeError) (s : State) : PolledFrame s (s.await e) := by
  cases e with
  | noInput => rfl
  | noAction | noLength =>
    unfold State.await
    dsimp only
    split_ifs <;> rfl

theorem State.takeData_polledFrame (len : Byte) (k : Nat) (data : List Byte) (s : State) :
    PolledFrame s (s.takeData len k data) := by
  have hb : PolledFrame s (burst k data (s.setHandlerPhase (.data len k))) :=
    PolledFrame.trans (b := s.setHandlerPhase _) rfl (burst_polledFrame k data _)
  unfold State.takeData
  dsimp only
  split_ifs
  · exact hb
  · exact hb.trans rfl
  · exact hb.trans rfl

/-- An instruction of the frame decode stays within the polled context (30_encoding R58). -/
theorem exec_frame_polledFrame {bytes rest : List Byte} {i : Instr} {s s' : State}
    (hi : decodeFrame bytes = .ok (i, rest)) (h : exec i s = .next s') : PolledFrame s s' := by
  obtain ⟨len, data, rfl⟩ | ⟨action, rfl⟩ | ⟨start, rfl⟩ := decodeFrame_not_counter hi
  · obtain ⟨rfl, -⟩ := State.admitWrites_next h
    exact PolledFrame.trans (b := s.beginRead _) rfl (State.takeData_polledFrame len 0 _ _)
  · injection h with h
    subst h
    rfl
  · injection h with h
    subst h
    rfl

theorem State.readOnWith_polledFrame {bound : Nat} {s s' : State} (h : s.readOnWith exec bound = .next s') :
    PolledFrame s s' := by
  obtain ⟨len, k, -, -, rfl⟩ | ⟨i, rest, hi, h⟩ | ⟨e, -, rfl⟩ := State.readOnWith_next h
  · exact PolledFrame.trans (b := s.setRx _) rfl (State.takeData_polledFrame len k _ _)
  · exact PolledFrame.trans (b := s.setRx (s.handler.rx.drop _)) rfl (exec_frame_polledFrame hi h)
  · exact State.await_polledFrame e s

theorem State.pollWith_polledFrame {s s' : State} (h : s.pollWith exec = .next s') : PolledFrame s s' := by
  obtain ⟨-, h⟩ | ⟨-, rfl | h⟩ | ⟨-, rfl⟩ := State.pollWith_next h
  · exact State.readOnWith_polledFrame h
  · rfl
  · exact PolledFrame.trans (b := s.drawFree) rfl (State.readOnWith_polledFrame h)
  · rfl

theorem State.performWith_polledFrame {l : Line} (hl : polledLine l = true) {s s' : State}
    (h : s.performWith exec l = .next s') : PolledFrame s s' := by
  cases l with
  | wr a v =>
    obtain ⟨rfl, -⟩ := State.admitWrites_next h
    exact State.write_polledFrame a v s
  | setColors data =>
    obtain ⟨rfl, -⟩ := State.admitWrites_next h
    exact burst_polledFrame 0 data s
  | rx b => injection h with h; subst h; rfl
  | elapse n => injection h with h; subst h; rfl
  | poll => exact State.pollWith_polledFrame h
  | reset | tick | tick0 | rstep => cases hl

/-! ## The periodic lines -/

/-- What the periodic context never moves: the parameters, the store, the handler, the script and the free values; and
it appends to the trace (60_exceptions R145, 10_state R20). -/
structure PeriodicFrame (s s' : State) : Prop where
  params  : s'.params = s.params
  store   : s'.store = s.store
  handler : s'.handler = s.handler
  script  : s'.script = s.script
  freeCtr : s'.freeCtr = s.freeCtr
  more    : ∃ l, s'.out = s.out ++ l

theorem PassFrame.periodicFrame {s s' : State} (h : PassFrame s s') : PeriodicFrame s s' :=
  ⟨h.params, h.store, h.handler, h.script, h.freeCtr, h.more⟩

theorem PeriodicFrame.refl (s : State) : PeriodicFrame s s := (PassFrame.refl s).periodicFrame

theorem PeriodicFrame.trans {a b c : State} (h : PeriodicFrame a b) (h' : PeriodicFrame b c) :
    PeriodicFrame a c := by
  obtain ⟨l, hl⟩ := h.more
  obtain ⟨l', hl'⟩ := h'.more
  exact ⟨h'.params.trans h.params, h'.store.trans h.store, h'.handler.trans h.handler,
    h'.script.trans h.script, h'.freeCtr.trans h.freeCtr, l ++ l', by rw [hl', hl, List.append_assoc]⟩

theorem State.tickEntry_periodicFrame (s : State) : PeriodicFrame s s.tickEntry := by
  obtain ⟨-, h⟩ | ⟨-, h⟩ := s.tickEntry_cases <;> rw [h]
  · exact ⟨rfl, rfl, rfl, rfl, rfl, [], (List.append_nil _).symm⟩
  · exact ⟨rfl, rfl, rfl, rfl, rfl, _, rfl⟩

theorem State.microStep_periodicFrame {s s' : State} (h : s.microStep = .next s') : PeriodicFrame s s' := by
  obtain ⟨-, -, rfl⟩ := State.microStep_next h
  exact (State.absorb_passFrame _ s).periodicFrame

/-- Where one bit of the counter is set, the decoded operation renders with the counter itself as its mask
(30_encoding R51, R52). -/
theorem decodeCnt_render : ∀ x : Byte, popcount x = 1 →
    isRender (decodeCnt x) = true ∧ renderMask (decodeCnt x) = x := by
  decide +kernel

theorem exec_decodeCnt_render {x : Byte} (h : popcount x = 1) (s : State) :
    exec (decodeCnt x) s = s.render x := by
  obtain ⟨hr, hm⟩ := decodeCnt_render x h
  rw [exec_render hr, hm]

theorem exec_decodeCnt_idle {x : Byte} (h : popcount x ≠ 1) (s : State) : exec (decodeCnt x) s = .next s := by
  rw [decodeCnt, if_neg h]
  rfl

/-- A tick is its entry, and on an idle machine whose new counter value has one bit set the start of a pass with that
mask (40_scheduler R70, R73). -/
theorem State.tick0With_cases {s s' : State} (h : s.tick0With exec = .next s') :
    s' = s.tickEntry ∨
      (s.busy = false ∧ popcount s.tickEntry.cnt = 1 ∧ s' = s.tickEntry.startPass s.tickEntry.cnt) := by
  obtain ⟨-, rfl⟩ | ⟨hf, h⟩ := State.tick0With_next h
  · exact .inl rfl
  obtain ⟨hb, he⟩ | ⟨hb, he⟩ := s.tickEntry_cases
  · rw [he] at hf
    cases hf
  have hidle : s.tickEntry.busy = false := by rw [he]; exact hb
  by_cases hp : popcount s.tickEntry.cnt = 1
  · rw [exec_decodeCnt_render hp] at h
    obtain ⟨hn, -⟩ | ⟨-, hbusy, -⟩ | ⟨-, -, hr⟩ := s.tickEntry.render_cases s.tickEntry.cnt
    · exact absurd hp hn
    · rw [hidle] at hbusy
      cases hbusy
    · rw [hr] at h
      injection h with h
      exact .inr ⟨hb, hp, h.symm⟩
  · rw [exec_decodeCnt_idle hp] at h
    injection h with h
    exact .inl h.symm

theorem State.tick0With_periodicFrame {s s' : State} (h : s.tick0With exec = .next s') : PeriodicFrame s s' := by
  obtain rfl | ⟨-, -, rfl⟩ := State.tick0With_cases h
  · exact s.tickEntry_periodicFrame
  · exact s.tickEntry_periodicFrame.trans (State.startPass_passFrame _ _).periodicFrame

/-- A `TICK` is a `TICK0` and then micro-steps, none where a fault is recorded (30_encoding R62). -/
theorem State.tickWith_next {s s' : State} (h : s.tickWith exec = .next s') :
    ∃ u, s.tick0With exec = .next u ∧ (s' = u ∨ runPass u.params.readsPerPass u = .next s') := by
  obtain ⟨u, hu, h⟩ := andThen_next h
  refine ⟨u, hu, ?_⟩
  split_ifs at h
  · injection h with h
    exact .inl h.symm
  · exact .inr h

/-- A periodic line keeps what a tick from its state establishes and every micro-step keeps (60_exceptions R145). -/
theorem State.performWith_periodic_induction {P : State → Prop} {s : State} (hs : P s)
    (htick : ∀ u, s.tick0With exec = .next u → P u)
    (hstep : ∀ u v, P u → u.microStep = .next v → P v) {l : Line} (hl : periodicLine l = true) {s' : State}
    (h : s.performWith exec l = .next s') : P s' := by
  cases l with
  | tick =>
    obtain ⟨u, hu, rfl | h⟩ := State.tickWith_next h
    · exact htick _ hu
    · exact runPass_induction hstep _ (htick u hu) h
  | tick0 => exact htick s' h
  | rstep => exact hstep s s' hs h
  | reset | wr | setColors | rx | elapse | poll => cases hl

theorem State.performWith_periodicFrame {l : Line} (hl : periodicLine l = true) {s s' : State}
    (h : s.performWith exec l = .next s') : PeriodicFrame s s' :=
  State.performWith_periodic_induction (P := PeriodicFrame s) (PeriodicFrame.refl s)
    (fun _ => State.tick0With_periodicFrame)
    (fun _ _ hu hv => hu.trans (State.microStep_periodicFrame hv)) hl h

/-! ## Every step -/

/-- A step that goes on is a `RESET`, a polled line or a periodic one (60_exceptions R145). -/
theorem step_next_cases {s s' : State} (h : step s = .next s') :
    (s.nextLine = .reset ∧ s' = s.dropLine.restart) ∨
    (polledLine s.nextLine = true ∧ s.dropLine.performWith exec s.nextLine = .next s') ∨
    (periodicLine s.nextLine = true ∧ s.dropLine.performWith exec s.nextLine = .next s') := by
  obtain ⟨-, h⟩ | ⟨-, hl, rfl⟩ := step_next h
  · cases hl : s.nextLine with
    | reset =>
      rw [hl] at h
      injection h with h
      exact .inl ⟨rfl, h.symm⟩
    | wr | setColors | rx | elapse | poll => exact .inr (.inl ⟨rfl, hl ▸ h⟩)
    | tick | tick0 | rstep => exact .inr (.inr ⟨rfl, hl ▸ h⟩)
  · exact .inl ⟨hl, rfl⟩

theorem ne_reset_of_polledLine {l : Line} (h : polledLine l = true) : l ≠ .reset := by
  rintro rfl
  cases h

theorem ne_reset_of_periodicLine {l : Line} (h : periodicLine l = true) : l ≠ .reset := by
  rintro rfl
  cases h

/-- Settles O59: `RESET` reads the parameters and empties the trace, and the frames of the two contexts hold both facts
for every other line. -/
theorem paramsFixedTraceGrows : Obligations.ParamsFixedTraceGrows := by
  intro s s' h
  obtain ⟨hl, rfl⟩ | ⟨hl, h⟩ | ⟨hl, h⟩ := step_next_cases h
  · rw [if_pos hl]
    exact ⟨rfl, rfl⟩
  · rw [if_neg (ne_reset_of_polledLine hl), s.dropLine_polledFrame.trans (State.performWith_polledFrame hl h)]
    exact ⟨rfl, [], (List.append_nil _).symm⟩
  · rw [if_neg (ne_reset_of_periodicLine hl)]
    have hframe := State.performWith_periodicFrame hl h
    exact ⟨hframe.params, hframe.more⟩

end Sys2Proof.Machine
end

section
/-! What the parts of a micro-step do, where the laws of the operations leave a field open. -/

namespace Sys2Proof.Machine

open Sys2Proof.Config

theorem nacc_succ_toNat {nacc : BitVec 4} (h : nacc.toNat ≤ 7) : (nacc + 1#4).toNat = nacc.toNat + 1 := by
  rw [BitVec.toNat_add]
  exact Nat.mod_eq_of_lt (by simp; omega)

/-- A channel takes a byte for every eight sectors, and one for the last (00_scope R6). -/
theorem chBytes_eq (p : Params) : p.chBytes = p.lastSector / 8 + 1 := by
  simp only [Params.chBytes, Params.numSectors]
  omega

/-- Bits sent while the shift clock is low leave it low (42_serializer R107; log 17). -/
theorem foldl_bitOut_sck {bits : List Bool} : ∀ {s : State}, s.sck = false →
    (bits.foldl State.bitOut s).sck = false := by
  induction bits with
  | nil => exact id
  | cons b bits ih => exact fun _ => ih (State.bitOut_sck _ b)

theorem State.shiftByte_sck (b : Byte) {s : State} (h : s.sck = false) : (s.shiftByte b).sck = false :=
  foldl_bitOut_sck h

/-- A `SHIFT` where the clock is low moves the data output, the shift stage and the trace, and nothing else
(42_serializer R106). -/
theorem State.shiftByte_of_sck_low (b : Byte) {s : State} (h : s.sck = false) :
    ∃ x sh, s.shiftByte b = { s with
      out := s.out ++ [(s.t, .shift b)], sdo := x, chain := { s.chain with sh := sh } } ∧
      sh.length = s.chain.sh.length := by
  obtain ⟨hframe, hlen⟩ := State.shiftByte_frame b s
  rw [State.shiftByte_sck b h, ← h] at hframe
  exact ⟨_, _, hframe, hlen⟩

theorem State.flush_of_not_due {s : State} (hd : ¬ s.flushDue = true) : s.flush = s := if_neg hd

@[simp] theorem State.flush_params (s : State) : s.flush.params = s.params := (State.flush_passFrame s).params

@[simp] theorem State.flush_rs_ch (s : State) : s.flush.rs.ch = s.rs.ch := by
  unfold State.flush
  split_ifs <;> rfl

@[simp] theorem State.flush_rs_sec (s : State) : s.flush.rs.sec = s.rs.sec := by
  unfold State.flush
  split_ifs <;> rfl

theorem State.advance_of_sec_pos {s : State} (h : s.rs.sec ≤ s.params.lastSector) (hpos : 0 < s.rs.sec) :
    s.advance = s.setRs { s.rs with sec := s.rs.sec - 1 } := by
  rw [State.advance, Sequencer.sector_eq h, if_pos hpos]

theorem State.advance_of_sec_zero_next {s : State} {ch : Channel} (hz : s.rs.sec = 0)
    (hch : nextChannel s.rs.ch = some ch) :
    s.advance = s.setRs { s.rs with ch := ch, sec := s.params.lastSector } := by
  simp [State.advance, Sequencer.sector, hz, hch]

theorem State.advance_of_sec_zero_last {s : State} (hz : s.rs.sec = 0) (hch : nextChannel s.rs.ch = none) :
    s.advance = s.finish := by
  simp [State.advance, Sequencer.sector, hz, hch]

end Sys2Proof.Machine
end

section
/-! The invariant of the sequencer, the outputs and the trace, through the parts of a micro-step. Between the parts it
does not hold, so it is carried as `PassProgress n k`: a pass in progress that has handed over `n` bytes and has `k` bits
in the byte being assembled. -/

namespace Sys2Proof.Safety

open Sys2Proof.Config Sys2Proof.Machine

/-! ## The trace and the byte being assembled -/

theorem traceState_append (frameBytes : Nat) (out : List (Nat × Event)) (t : Nat) (e : Event) :
    traceState frameBytes (out ++ [(t, e)]) =
      (traceState frameBytes out).bind fun x => x.next frameBytes e := by
  rw [traceState, List.foldl_append]
  rfl

/-- An empty accumulator has no filled position (41_render R89). -/
theorem unfilledZero_of_acc_zero {s : State} (h : s.rs.acc = 0x00#8) : UnfilledZero s := by
  unfold UnfilledZero
  cases s.params.partialAlign <;> simp [h]

theorem unfilledZero_left {s : State} (ha : s.params.partialAlign = .left) :
    UnfilledZero s ↔ ∀ i, i < 8 - s.rs.nacc.toNat → s.rs.acc.getLsbD i = false := by
  rw [UnfilledZero, ha]

theorem unfilledZero_right {s : State} (ha : s.params.partialAlign = .right) :
    UnfilledZero s ↔ ∀ i, s.rs.nacc.toNat ≤ i → s.rs.acc.getLsbD i = false := by
  rw [UnfilledZero, ha]

/-- `PACK` fills one position and leaves the others that are not filled at 0 (41_render R89). -/
theorem unfilledZero_pack {s : State} (bit : Bool) (h : UnfilledZero s) (hn : s.rs.nacc.toNat ≤ 7) :
    UnfilledZero (s.pack bit) := by
  have hnacc := nacc_succ_toNat hn
  cases ha : s.params.partialAlign with
  | left =>
    rw [unfilledZero_left ha] at h
    rw [unfilledZero_left (s := s.pack bit) ha]
    intro i hi
    simp only [State.pack_rs, hnacc] at hi
    have hbelow : i < 7 - s.rs.nacc.toNat := by omega
    simp [packBit, ha, hbelow, h i (by omega)]
  | right =>
    rw [unfilledZero_right ha] at h
    rw [unfilledZero_right (s := s.pack bit) ha]
    intro i hi
    simp only [State.pack_rs, hnacc] at hi
    obtain ⟨j, rfl⟩ : ∃ j, i = j + 1 := ⟨i - 1, by omega⟩
    have hbit : bit.toNat.testBit (j + 1) = false := by cases bit <;> simp [Nat.testBit_succ]
    simp [packBit, ha, h j (by omega), BitVec.getLsbD_ofNat, hbit]

/-! ## A pass in progress -/

/-- A pass in progress that has handed over `n` bytes and has `k` bits in the byte being assembled. -/
structure PassProgress (n k : Nat) (s : State) : Prop where
  busy   : s.busy = true
  sec    : s.rs.sec ≤ s.params.lastSector
  onehot : popcount s.rs.mask = 1
  mask   : s.rs.mask = s.cnt
  nacc   : s.rs.nacc.toNat = k
  zero   : UnfilledZero s
  latch  : s.latch = false
  txn    : s.txn = true
  sck    : s.sck = false
  sh     : s.chain.sh.length = s.params.frameBits
  ho     : s.chain.ho.length = s.params.frameBits
  trace  : traceState s.params.frameBytes s.out = some (.inside n)

/-- Between two steps of a pass the invariant is the progress its place calls for (41_render R90). -/
theorem passInv_iff_of_busy {s : State} (hb : s.busy = true) :
    PassInv s ↔ PassProgress (flushedBytes s) ((s.params.lastSector - s.rs.sec) % 8) s := by
  constructor
  · rintro ⟨hsec, -, hzero, hbusy, htxn, hsck, hsh, hho, htrace⟩
    obtain ⟨honehot, hmask, hnacc, hlatch⟩ := hbusy hb
    exact ⟨hb, hsec, honehot, hmask, hnacc, hzero, hlatch, htxn.trans hb, hsck, hsh, hho,
      by rw [htrace, expectedTrace, if_pos hb]⟩
  · rintro ⟨-, hsec, honehot, hmask, hnacc, hzero, hlatch, htxn, hsck, hsh, hho, htrace⟩
    exact ⟨hsec, by omega, hzero, fun _ => ⟨honehot, hmask, hnacc, hlatch⟩, htxn.trans hb.symm, hsck, hsh, hho,
      by rw [htrace, expectedTrace, if_pos hb]⟩

theorem expectedTrace_of_idle {s : State} (hb : s.busy = false) :
    expectedTrace s = if s.latch then .high else .low := by
  rw [expectedTrace, if_neg (Bool.eq_false_iff.1 hb)]

/-- On an idle machine the invariant asks nothing of the mask, and the trace follows the latch. -/
theorem passInv_of_idle {s : State} (hb : s.busy = false) (hsec : s.rs.sec ≤ s.params.lastSector)
    (hnacc : s.rs.nacc.toNat ≤ 7) (hzero : UnfilledZero s) (htxn : s.txn = false) (hsck : s.sck = false)
    (hsh : s.chain.sh.length = s.params.frameBits) (hho : s.chain.ho.length = s.params.frameBits)
    (htrace : traceState s.params.frameBytes s.out = some (if s.latch then .high else .low)) : PassInv s :=
  ⟨hsec, hnacc, hzero, fun h => absurd h (Bool.eq_false_iff.1 hb), htxn.trans hb.symm, hsck, hsh, hho,
    by rw [htrace, expectedTrace_of_idle hb]⟩

theorem PassProgress.pack {n k : Nat} {s : State} (h : PassProgress n k s) (hk : k ≤ 7) (bit : Bool) :
    PassProgress n (k + 1) (s.pack bit) where
  busy := h.busy
  sec := h.sec
  onehot := h.onehot
  mask := h.mask
  nacc := by rw [State.pack_rs, nacc_succ_toNat (h.nacc.trans_le hk), h.nacc]
  zero := unfilledZero_pack bit h.zero (h.nacc.trans_le hk)
  latch := h.latch
  txn := h.txn
  sck := h.sck
  sh := h.sh
  ho := h.ho
  trace := h.trace

theorem PassProgress.flushDue_iff {n k : Nat} {s : State} (h : PassProgress n k s) :
    s.flushDue = true ↔ k = 8 ∨ s.rs.sec = 0 := by
  simp [State.flushDue, Sequencer.sector_eq h.sec, ← BitVec.toNat_inj, h.nacc]

/-- `FLUSH` where it is due hands over a byte and empties the one being assembled (41_render R90). -/
theorem PassProgress.flush_due {n k : Nat} {s : State} (h : PassProgress n k s) (hd : s.flushDue = true) :
    PassProgress (n + 1) 0 s.flush := by
  obtain ⟨x, sh, hframe, hlen⟩ := State.shiftByte_of_sck_low s.rs.acc h.sck
  rw [State.flush, if_pos hd, hframe]
  exact {
    busy := h.busy
    sec := h.sec
    onehot := h.onehot
    mask := h.mask
    nacc := rfl
    zero := unfilledZero_of_acc_zero rfl
    latch := h.latch
    txn := h.txn
    sck := h.sck
    sh := hlen.trans h.sh
    ho := h.ho
    trace := by
      show traceState s.params.frameBytes (s.out ++ [(s.t, .shift s.rs.acc)]) = _
      rw [traceState_append, h.trace]
      rfl }

/-- The next sector or channel (41_render R91). -/
theorem PassProgress.setPlace {n k : Nat} {s : State} (h : PassProgress n k s) (ch : Channel) {sec : Nat}
    (hsec : sec ≤ s.params.lastSector) : PassProgress n k (s.setRs { s.rs with ch := ch, sec := sec }) where
  busy := h.busy
  sec := hsec
  onehot := h.onehot
  mask := h.mask
  nacc := h.nacc
  zero := h.zero
  latch := h.latch
  txn := h.txn
  sck := h.sck
  sh := h.sh
  ho := h.ho
  trace := h.trace

/-- The end of a pass that handed over the whole frame: the bracket closes, then the latch rises (42_serializer R108,
R109, R111). -/
theorem PassProgress.finish {k : Nat} {s : State} (h : PassProgress s.params.frameBytes k s) (hk : k ≤ 7) :
    PassInv s.finish := by
  refine passInv_of_idle rfl h.sec (h.nacc.trans_le hk) h.zero rfl h.sck h.sh h.sh ?_
  show traceState s.params.frameBytes ((s.out ++ [(s.t, .txnEnd)]) ++ [(s.t, .latchRise)]) = some .high
  rw [traceState_append, traceState_append, h.trace]
  simp [TraceState.next]

/-- Going on to the sector below keeps the invariant, where the bytes and bits are those of that sector. -/
theorem PassProgress.advance_sector {n k : Nat} {s : State} (h : PassProgress n k s) (hpos : 0 < s.rs.sec)
    (hn : n = channelIndex s.rs.ch * s.params.chBytes + (s.params.lastSector - (s.rs.sec - 1)) / 8)
    (hk : k = (s.params.lastSector - (s.rs.sec - 1)) % 8) : PassInv s.advance := by
  have hsec := h.sec
  rw [State.advance_of_sec_pos hsec hpos]
  subst hn hk
  have hplace := h.setPlace s.rs.ch (sec := s.rs.sec - 1) (by omega)
  exact (passInv_iff_of_busy hplace.busy).2 hplace

/-- After the last sector of a channel the pass goes on to the next channel, or ends (41_render R91). -/
theorem PassProgress.advance_channel {s : State}
    (h : PassProgress ((channelIndex s.rs.ch + 1) * s.params.chBytes) 0 s) (hz : s.rs.sec = 0) : PassInv s.advance := by
  have hnext {ch : Channel} (hch : nextChannel s.rs.ch = some ch)
      (hindex : channelIndex ch = channelIndex s.rs.ch + 1) : PassInv s.advance := by
    rw [State.advance_of_sec_zero_next hz hch]
    have hplace := h.setPlace ch (Nat.le_refl _)
    refine (passInv_iff_of_busy hplace.busy).2 ?_
    simpa [flushedBytes, hindex] using hplace
  cases hch : s.rs.ch with
  | blue => exact hnext (ch := .green) (by rw [hch]; rfl) (by rw [hch]; rfl)
  | green => exact hnext (ch := .red) (by rw [hch]; rfl) (by rw [hch]; rfl)
  | red =>
    rw [State.advance_of_sec_zero_last hz (by rw [hch]; rfl)]
    rw [hch] at h
    exact h.finish (by omega)

/-! ## The events -/

/-- Where the bit of the current place has been packed, the rest of the micro-step gives the invariant (41_render R90,
R91): eight bits, or the last sector of a channel, hand over a byte, so that a channel hands over `CH_BYTES`. -/
theorem PassProgress.flush_advance {s : State}
    (h : PassProgress (flushedBytes s) ((s.params.lastSector - s.rs.sec) % 8 + 1) s) : PassInv s.flush.advance := by
  have hsec := h.sec
  have hbytes : flushedBytes s =
    channelIndex s.rs.ch * s.params.chBytes + (s.params.lastSector - s.rs.sec) / 8 := rfl
  by_cases hd : s.flushDue = true
  · have hflush := h.flush_due hd
    rw [h.flushDue_iff] at hd
    by_cases hz : s.rs.sec = 0
    · have hchannel : flushedBytes s + 1 = (channelIndex s.rs.ch + 1) * s.params.chBytes := by
        rw [hbytes, hz, Nat.sub_zero, Nat.add_assoc, ← chBytes_eq, ← Nat.succ_mul]
      exact PassProgress.advance_channel (by simpa [hchannel] using hflush) (by simpa using hz)
    · refine hflush.advance_sector (by simpa using Nat.pos_of_ne_zero hz) ?_ ?_ <;>
        simp only [State.flush_params, State.flush_rs_ch, State.flush_rs_sec] <;> omega
  · rw [State.flush_of_not_due hd]
    rw [h.flushDue_iff] at hd
    exact h.advance_sector (by omega) (by omega) (by omega)

/-- A micro-step keeps the invariant (41_render R89, R90, R91). -/
theorem microStep_passInv {s s' : State} (h : PassInv s) (hs : s.microStep = .next s') : PassInv s' := by
  obtain ⟨hb, -, rfl⟩ := State.microStep_next hs
  have hprogress := (passInv_iff_of_busy hb).1 h
  have hpack := hprogress.pack (by omega) (extractBit (s.store.read s.readAddr) s.rs.mask)
  exact hpack.flush_advance

/-- The tick's entry keeps the invariant: it moves only `t` and the fault record of a busy machine, and it clears the
latch of an idle one with the event that the grammar asks for (40_scheduler R70, 42_serializer R110). -/
theorem tickEntry_passInv {s : State} (h : PassInv s) : PassInv s.tickEntry := by
  obtain ⟨-, he⟩ | ⟨hb, he⟩ := s.tickEntry_cases
  · rw [he]
    exact h
  · obtain ⟨hsec, hnacc, hzero, -, htxn, hsck, hsh, hho, htrace⟩ := h
    rw [he]
    refine passInv_of_idle hb hsec hnacc hzero (htxn.trans hb) hsck hsh hho ?_
    rw [expectedTrace_of_idle hb] at htrace
    cases hl : s.latch with
    | false => simpa [hl] using htrace
    | true =>
      simp only [if_true]
      rw [traceState_append, htrace, hl]
      rfl

/-- The gate starts a pass that meets the invariant, where the mask is the counter and the latch is low (40_scheduler
R73). -/
theorem startPass_passInv {s : State} (h : PassInv s) (hb : s.busy = false) (hl : s.latch = false)
    (hp : popcount s.cnt = 1) : PassInv (s.startPass s.cnt) := by
  obtain ⟨-, -, -, -, -, hsck, hsh, hho, htrace⟩ := h
  refine (passInv_iff_of_busy rfl).2 ?_
  have htrace' : traceState s.params.frameBytes (s.out ++ [(s.t, .txnBegin)]) = some (.inside 0) := by
    rw [traceState_append, htrace, expectedTrace_of_idle hb, hl]
    rfl
  exact {
    busy := rfl
    sec := Nat.le_refl _
    onehot := hp
    mask := rfl
    nacc := by simp [Sequencer.started]
    zero := unfilledZero_of_acc_zero rfl
    latch := hl
    txn := rfl
    sck := hsck
    sh := hsh
    ho := hho
    trace := by simpa [flushedBytes, Sequencer.started, channelIndex] using htrace' }

theorem tick0_passInv {s s' : State} (h : PassInv s) (hs : s.tick0With exec = .next s') : PassInv s' := by
  obtain rfl | ⟨hb, hp, rfl⟩ := State.tick0With_cases hs
  · exact tickEntry_passInv h
  · obtain ⟨hbusy, -⟩ | ⟨-, he⟩ := s.tickEntry_cases
    · rw [hb] at hbusy
      cases hbusy
    · exact startPass_passInv (tickEntry_passInv h) (by rw [he]; exact hb) (by rw [he]) hp

theorem passInv_of_polledFrame {s s' : State} (hframe : PolledFrame s s') (h : PassInv s) : PassInv s' := by
  rw [hframe]
  exact h

/-- After reset the invariant asks only that the chain is whole (10_state R24, 70_reset_and_hazards R165, R175). -/
theorem passInv_of_reset {s : State} (hrs : s.rs = Sequencer.reset) (hlatch : s.latch = false) (htxn : s.txn = false)
    (hsck : s.sck = false) (hout : s.out = []) (hsh : s.chain.sh.length = s.params.frameBits)
    (hho : s.chain.ho.length = s.params.frameBits) : PassInv s := by
  have hb : s.busy = false := by rw [State.busy, hrs]; rfl
  refine passInv_of_idle hb ?_ ?_ (unfilledZero_of_acc_zero (by rw [hrs]; rfl)) htxn hsck hsh hho ?_
  · rw [hrs]
    exact Nat.zero_le _
  · rw [hrs]
    decide
  · rw [hout, hlatch]
    rfl

theorem restart_passInv {s : State} (h : PassInv s) : PassInv s.restart := by
  obtain ⟨-, -, -, -, -, -, hsh, hho, -⟩ := h
  exact passInv_of_reset rfl rfl rfl rfl rfl hsh hho

theorem resetWith_passInv (p : Params) : PassInv (State.resetWith p) :=
  passInv_of_reset rfl rfl rfl rfl rfl List.length_replicate List.length_replicate

/-! ## The statements -/

/-- Settles O57: every field by its definition. -/
theorem resetValues : Obligations.ResetValues :=
  ⟨fun _ => ⟨rfl, fun _ => rfl, rfl, rfl, rfl, rfl, rfl, rfl, rfl, rfl, rfl⟩, rfl, rfl, rfl, rfl⟩

/-- Settles O58: the empty store is canonical, the start of the sequencer and the whole chain meet the pass invariant,
no tick has been counted, and the handler starts between frames. -/
theorem invariantsHoldAtReset : Obligations.InvariantsHoldAtReset := by
  intro p
  have hschedule : ScheduleInv (State.resetWith p) := fun _ => (BitVec.add_zero _).symm
  have hhandler : HandlerInv (State.resetWith p) := ⟨fun _ _ h => (by cases h), Nat.le_refl _, rfl, rfl⟩
  exact ⟨⟨rfl, rfl⟩, resetWith_passInv p, hschedule, hhandler⟩

/-- Settles O32: `RESET` starts again on the chain as it is, the polled lines touch nothing the invariant speaks of, and
the periodic ones keep it tick by tick and micro-step by micro-step. -/
theorem passInvariantKept : Obligations.PassInvariantKept := by
  intro s s' h hs
  have hdrop : PassInv s.dropLine := passInv_of_polledFrame s.dropLine_polledFrame h
  obtain ⟨-, rfl⟩ | ⟨hl, hs⟩ | ⟨hl, hs⟩ := step_next_cases hs
  · exact restart_passInv hdrop
  · exact passInv_of_polledFrame (State.performWith_polledFrame hl hs) hdrop
  · exact State.performWith_periodic_induction (P := PassInv) hdrop (fun _ => tick0_passInv hdrop)
      (fun _ _ => microStep_passInv) hl hs

end Sys2Proof.Safety
end

section
/-! The store: where its bytes are and what one write does to it (20_memory R31, R33, R38). -/

namespace Sys2Proof.Machine

open Sys2Proof.Config Sys2Proof.Safety

/-! ## The addresses -/

theorem channelOffset_lt (layout : StoreLayout) (ch : Channel) : channelOffset layout ch < 4 := by
  cases layout <;> cases ch <;> decide

theorem paddingOffset_lt (layout : StoreLayout) : paddingOffset layout < 4 := by
  cases layout <;> decide

/-- The three channels and the padding of a sector are four different bytes (20_memory R31). -/
theorem channelOffset_ne_paddingOffset (layout : StoreLayout) (ch : Channel) :
    channelOffset layout ch ≠ paddingOffset layout := by
  cases layout <;> cases ch <;> decide

theorem channelOffset_inj {layout : StoreLayout} {ch ch2 : Channel}
    (h : channelOffset layout ch = channelOffset layout ch2) : ch = ch2 := by
  revert h
  cases layout <;> cases ch <;> cases ch2 <;> decide

theorem channelAddr_ne_paddingAddr (p : Params) (s s2 : Nat) (ch : Channel) :
    channelAddr p s ch ≠ paddingAddr p s2 := by
  have hch := channelOffset_lt p.storeLayout ch
  have hpad := paddingOffset_lt p.storeLayout
  have hne := channelOffset_ne_paddingOffset p.storeLayout ch
  simp only [channelAddr, paddingAddr, bytesPerSector]
  omega

theorem channelAddr_inj {p : Params} {s s2 : Nat} {ch ch2 : Channel}
    (h : channelAddr p s ch = channelAddr p s2 ch2) : s = s2 ∧ ch = ch2 := by
  have hch := channelOffset_lt p.storeLayout ch
  have hch2 := channelOffset_lt p.storeLayout ch2
  simp only [channelAddr, bytesPerSector] at h
  exact ⟨by omega, channelOffset_inj (layout := p.storeLayout) (by omega)⟩

/-- Settles O35: the addresses by the two layouts, and the offsets of a sector are four different numbers below 4. -/
theorem channelAddresses : Obligations.ChannelAddresses := by
  refine ⟨fun p s ch => ?_, fun p s => ?_, fun p s ch s2 ch2 hs _ =>
    ⟨channelAddr_lt ch (Nat.le_of_lt_succ hs), channelAddr_ne_paddingAddr p s s2 ch, channelAddr_inj⟩⟩
  · cases hl : p.storeLayout <;> cases ch <;> rw [channelAddr, hl] <;> rfl
  · cases hl : p.storeLayout <;> rw [paddingAddr, hl] <;> rfl

/-! ## One write -/

theorem Memory.write_read_self {m : Memory} (a : Nat) (h : m.wf = true) : m.write a (m.read a) = m := by
  refine Memory.ext_read (Memory.wf_write a _ h) h fun b => ?_
  rw [Memory.read_write a b _ h]
  split_ifs with hb
  · rw [hb]
  · rfl

theorem State.readByte_inside {s : State} {a : Nat} (h : a < s.params.storeBytes) :
    s.readByte a = some (s.store.read a) := if_pos h

/-- Where writes are admitted, a `WR` line is a write of the machine without that line (20_memory R33). -/
theorem step_wr {s : State} {a : Nat} {v : Byte} (h : NextIs s (.wr a v)) (hb : s.writesBarred = false) :
    step s = .next (s.dropLine.write a v) := by
  rw [step_eq h]
  exact State.admitWrites_eq _ (.inl hb)

/-- The Blue channel of sector 0 is at address 3 under `DOC` (20_memory R31). -/
theorem channelAddr_zero_blue_doc {p : Params} (h : p.storeLayout = .doc) : channelAddr p 0 .blue = 3 := by
  rw [channelAddr, h]
  rfl

/-- Settles O36: the two sides of the write port's bounds check, and a read after a write for the worked example. -/
theorem writeByte : Obligations.WriteByte := by
  refine ⟨fun s a v hinv hl hb ha => ?_, fun s a v hl hb ha => ?_, fun s hinv hdoc => ?_⟩
  · refine ⟨s.store.write a v, ?_, fun b => Memory.read_write a b v hinv.1⟩
    rw [step_wr hl hb, State.write_inside v (s := s.dropLine) ha]
    rfl
  · rw [step_wr hl hb, State.write_outside v (s := s.dropLine) ha, State.raise, State.dropLine_fault, hl.1]
    rfl
  · have hblue := channelAddr_zero_blue_doc hdoc
    have hthree : 3 < s.params.storeBytes := hblue ▸ channelAddr_lt .blue (Nat.zero_le _)
    rw [hblue, State.readByte_inside (by rwa [State.write_params]), State.write_inside _ hthree,
      Memory.read_write 3 3 _ hinv.1, if_pos rfl]

/-- Settles O38: in canonical form the store is what it reads as, and the write leaves every read as it was. -/
theorem rewriteChangesNothing : Obligations.RewriteChangesNothing := by
  rintro s a ⟨hwf, -⟩ ha
  refine ⟨State.readByte_inside ha, ?_⟩
  rw [State.write_inside _ ha, Memory.write_read_self a hwf]

end Sys2Proof.Machine
end

section
/-! Every event keeps the store canonical and inside its bounds, and only `RESET` and the lines of the writer change it
(20_memory R39, R48). -/

namespace Sys2Proof.Safety

open Sys2Proof.Machine

theorem write_storeInv {s : State} (a : Nat) (v : Byte) (h : StoreInv s) : StoreInv (s.write a v) := by
  obtain ⟨hwf, hwithin⟩ := h
  by_cases ha : a < s.params.storeBytes
  · rw [State.write_inside v ha]
    exact ⟨Memory.wf_write a v hwf, Memory.within_write v hwithin ha⟩
  · rw [State.write_outside v (Nat.le_of_not_lt ha)]
    exact ⟨hwf, hwithin⟩

theorem burst_storeInv (ds : List Byte) : ∀ (k : Nat) {s : State}, StoreInv s → StoreInv (burst k ds s) := by
  induction ds with
  | nil => exact fun _ _ h => h
  | cons d ds ih =>
    intro k s h
    have hw := write_storeInv k d h
    rw [burst_cons]
    split_ifs
    · exact hw
    · exact ih (k + 1) hw

/-- A data read changes the store only by its burst (43_store_write R121). -/
theorem takeData_storeInv (len : Byte) (k : Nat) (data : List Byte) {s : State} (h : StoreInv s) :
    StoreInv (s.takeData len k data) := by
  have hb : StoreInv (burst k data (s.setHandlerPhase (.data len k))) := burst_storeInv data k h
  unfold State.takeData
  dsimp only
  split_ifs <;> exact hb

/-- A wait for a byte moves the handler only (43_store_write R127). -/
theorem await_storeInv (e : DecodeError) {s : State} (h : StoreInv s) : StoreInv (s.await e) := by
  cases e with
  | noInput => exact h
  | noAction | noLength =>
    unfold State.await
    dsimp only
    split_ifs <;> exact h

/-- Of the instructions of the frame decode only `SETCOLORS` writes (43_store_write R127). -/
theorem exec_frame_storeInv {bytes rest : List Byte} {i : Instr} {s s' : State}
    (hi : decodeFrame bytes = .ok (i, rest)) (h : StoreInv s) (hs : exec i s = .next s') : StoreInv s' := by
  obtain ⟨len, data, rfl⟩ | ⟨action, rfl⟩ | ⟨start, rfl⟩ := decodeFrame_not_counter hi
  · obtain ⟨rfl, -⟩ := State.admitWrites_next hs
    exact takeData_storeInv len 0 _ h
  · injection hs with hs
    exact hs ▸ h
  · injection hs with hs
    exact hs ▸ h

theorem readOnWith_storeInv {bound : Nat} {s s' : State} (h : StoreInv s)
    (hs : s.readOnWith exec bound = .next s') : StoreInv s' := by
  obtain ⟨len, k, -, -, rfl⟩ | ⟨i, rest, hi, hs⟩ | ⟨e, -, rfl⟩ := State.readOnWith_next hs
  · exact takeData_storeInv len k _ h
  · exact exec_frame_storeInv (s := s.setRx (s.handler.rx.drop _)) hi h hs
  · exact await_storeInv e h

theorem pollWith_storeInv {s s' : State} (h : StoreInv s) (hs : s.pollWith exec = .next s') : StoreInv s' := by
  obtain ⟨-, hs⟩ | ⟨-, rfl | hs⟩ | ⟨-, rfl⟩ := State.pollWith_next hs
  · exact readOnWith_storeInv h hs
  · exact h
  · exact readOnWith_storeInv (s := s.drawFree) h hs
  · exact h

theorem performWith_polled_storeInv {l : Line} (hl : polledLine l = true) {s s' : State} (h : StoreInv s)
    (hs : s.performWith exec l = .next s') : StoreInv s' := by
  cases l with
  | wr a v =>
    obtain ⟨rfl, -⟩ := State.admitWrites_next hs
    exact write_storeInv a v h
  | setColors data =>
    obtain ⟨rfl, -⟩ := State.admitWrites_next hs
    exact burst_storeInv data 0 h
  | rx | elapse => injection hs with hs; exact hs ▸ h
  | poll => exact pollWith_storeInv h hs
  | reset | tick | tick0 | rstep => cases hl

/-- The invariant speaks of nothing the periodic context moves (60_exceptions R145). -/
theorem storeInv_of_periodicFrame {s s' : State} (hframe : PeriodicFrame s s') (h : StoreInv s) : StoreInv s' := by
  unfold StoreInv
  rwa [hframe.store, hframe.params]

/-- Settles O39: `RESET` empties the store, the polled lines change it by writes that check their bounds, and the
periodic ones leave it alone. -/
theorem storeInvariantKept : Obligations.StoreInvariantKept := by
  intro s s' h hs
  have hdrop : StoreInv s.dropLine := h
  obtain ⟨-, rfl⟩ | ⟨hl, hs⟩ | ⟨hl, hs⟩ := step_next_cases hs
  · exact ⟨rfl, rfl⟩
  · exact performWith_polled_storeInv hl hdrop hs
  · exact storeInv_of_periodicFrame (State.performWith_periodicFrame hl hs) hdrop

/-- Settles O40: the periodic lines keep the store by their frame, and of the polled ones an arriving byte and passing
time touch the handler alone. -/
theorem onlyWriterChangesStore : Obligations.OnlyWriterChangesStore := by
  intro s s' hs hne
  obtain ⟨hl, -⟩ | ⟨hl, hs⟩ | ⟨hl, hs⟩ := step_next_cases hs
  · exact .inl hl
  · cases hline : s.nextLine with
    | poll => exact .inr (.inl rfl)
    | wr a v => exact .inr (.inr (.inl ⟨a, v, rfl⟩))
    | setColors data => exact .inr (.inr (.inr ⟨data, rfl⟩))
    | rx | elapse =>
      rw [hline] at hs
      injection hs with hs
      exact absurd (congrArg State.store hs) hne
    | reset | tick | tick0 | rstep => rw [hline] at hl; cases hl
  · exact absurd (State.performWith_periodicFrame hl hs).store.symm hne

end Sys2Proof.Safety
end

section
/-! Where an event can stop with a fault: only at a micro-step whose sector index is not one (log 8). -/

namespace Sys2Proof.Machine

theorem andThen_ne_fault {r : Result} {k : State → Result} {f : Fault} (hr : r ≠ .fault f)
    (hk : ∀ s, r = .next s → k s ≠ .fault f) : andThen r k ≠ .fault f := by
  cases r with
  | next s => exact hk s rfl
  | fault g => exact hr
  | refused w => exact nofun

theorem State.admitWrites_ne_fault (s : State) (data : List Byte) (s' : State) (f : Fault) :
    s.admitWrites data s' ≠ .fault f := by
  unfold State.admitWrites
  split_ifs <;> exact nofun

theorem State.render_ne_fault (m : Byte) (s : State) (f : Fault) : s.render m ≠ .fault f := by
  obtain ⟨-, h⟩ | ⟨-, -, h⟩ | ⟨-, -, h⟩ := s.render_cases m <;> rw [h] <;> exact nofun

/-- A fault that an instruction takes is recorded in a next state (60_exceptions R142; log 7). -/
theorem exec_ne_fault (i : Instr) (s : State) (f : Fault) : exec i s ≠ .fault f := by
  cases i with
  | idle | unknown | resync => exact nofun
  | setColors len data => exact State.admitWrites_ne_fault s _ _ f
  | renderP0 | renderP1 | renderP2 | renderP3 | renderP4 | renderP5 | renderP6 | renderP7 =>
    rw [exec_render rfl]
    exact State.render_ne_fault _ s f

/-- Where the sector index is one, the read is in range (20_memory R32). -/
theorem State.microStep_ne_fault {s : State} (h : s.rs.sec ≤ s.params.lastSector) (f : Fault) :
    s.microStep ≠ .fault f := by
  cases hb : s.busy with
  | false => rw [State.microStep, hb]; exact nofun
  | true =>
    rw [State.microStep_eq hb (State.readAddr_eq h ▸ channelAddr_lt s.rs.ch h)]
    exact nofun

theorem State.tick0With_ne_fault (s : State) (f : Fault) : s.tick0With exec ≠ .fault f := by
  unfold State.tick0With
  dsimp only
  split_ifs
  · exact nofun
  · exact exec_ne_fault _ _ f

theorem State.readOnWith_ne_fault (bound : Nat) (s : State) (f : Fault) : s.readOnWith exec bound ≠ .fault f := by
  unfold State.readOnWith
  split
  · exact State.admitWrites_ne_fault s _ _ f
  · split
    · exact exec_ne_fault _ _ f
    · exact nofun

theorem State.pollWith_ne_fault (s : State) (f : Fault) : s.pollWith exec ≠ .fault f := by
  unfold State.pollWith
  split
  · exact State.readOnWith_ne_fault _ _ f
  · split_ifs
    · exact nofun
    · exact State.readOnWith_ne_fault _ _ f
  · exact nofun

end Sys2Proof.Machine
end

section
/-! The pass invariant rules out the one fault that stops an event (20_memory R32). -/

namespace Sys2Proof.Safety

open Sys2Proof.Machine

theorem runPass_ne_fault (f : Fault) : ∀ (n : Nat) {s : State}, PassInv s → runPass n s ≠ .fault f := by
  intro n
  induction n with
  | zero => exact fun _ => nofun
  | succ n ih =>
    intro s h
    rw [runPass]
    split_ifs
    · exact andThen_ne_fault (State.microStep_ne_fault h.1 f) fun u hu => ih (microStep_passInv h hu)
    · exact nofun

theorem tickWith_ne_fault {s : State} (h : PassInv s) (f : Fault) : s.tickWith exec ≠ .fault f := by
  refine andThen_ne_fault (State.tick0With_ne_fault s f) fun u hu => ?_
  split_ifs
  · exact nofun
  · exact runPass_ne_fault f _ (tick0_passInv h hu)

/-- Under the pass invariant no event stops with a fault: those of 60_exceptions R142 are recorded (log 7). -/
theorem performWith_ne_fault {s : State} (h : PassInv s) (l : Line) (f : Fault) :
    s.performWith exec l ≠ .fault f := by
  cases l with
  | reset | rx | elapse => exact nofun
  | wr a v => exact State.admitWrites_ne_fault s _ _ f
  | setColors data => exact State.admitWrites_ne_fault s _ _ f
  | tick => exact tickWith_ne_fault h f
  | tick0 => exact State.tick0With_ne_fault s f
  | rstep => exact State.microStep_ne_fault h.1 f
  | poll => exact State.pollWith_ne_fault s f

/-- Settles O33: without a recorded fault a step is its event, and no event stops with a fault. -/
theorem noReadOutsideStore : Obligations.NoReadOutsideStore := by
  intro s a h hf
  have hdrop : PassInv s.dropLine := passInv_of_polledFrame s.dropLine_polledFrame h
  rw [step_eq ⟨hf, rfl⟩]
  exact performWith_ne_fault hdrop s.nextLine _

end Sys2Proof.Safety
end

section
/-! The two decoders: what the frame decoder reads of each form its bytes can take, and that both invert the encoder
(30_encoding R51, R58). -/

namespace Sys2Proof

/-! ## The frame decoder, form by form -/

theorem decodeFrame_nil : decodeFrame [] = .error .noInput := rfl

theorem decodeFrame_resync {b : Byte} (h : b ≠ startByte) (rest : List Byte) :
    decodeFrame (b :: rest) = .ok (.resync b, rest) := if_pos h

theorem decodeFrame_start : decodeFrame [startByte] = .error .noAction := rfl

theorem decodeFrame_unknown {a : Byte} (h : a ≠ setColorsAction) (rest : List Byte) :
    decodeFrame (startByte :: a :: rest) = .ok (.unknown a, rest) := if_pos h

theorem decodeFrame_header : decodeFrame [startByte, setColorsAction] = .error .noLength := rfl

theorem decodeFrame_setColors (len : Byte) (rest : List Byte) :
    decodeFrame (startByte :: setColorsAction :: len :: rest) =
      .ok (.setColors len (rest.take len.toNat), rest.drop len.toNat) := rfl

/-- The forms that received bytes can take (43_store_write R127). -/
theorem frameBytes_cases (bytes : List Byte) :
    bytes = [] ∨ (∃ b rest, b ≠ startByte ∧ bytes = b :: rest) ∨ bytes = [startByte] ∨
      (∃ a rest, a ≠ setColorsAction ∧ bytes = startByte :: a :: rest) ∨ bytes = [startByte, setColorsAction] ∨
      ∃ len rest, bytes = startByte :: setColorsAction :: len :: rest := by
  match bytes with
  | [] => exact .inl rfl
  | [b] =>
    by_cases hb : b = startByte
    · subst hb
      exact .inr (.inr (.inl rfl))
    · exact .inr (.inl ⟨b, [], hb, rfl⟩)
  | b :: a :: rest =>
    by_cases hb : b = startByte
    · subst hb
      by_cases ha : a = setColorsAction
      · subst ha
        cases rest with
        | nil => exact .inr (.inr (.inr (.inr (.inl rfl))))
        | cons len rest => exact .inr (.inr (.inr (.inr (.inr ⟨len, rest, rfl⟩))))
      · exact .inr (.inr (.inr (.inl ⟨a, rest, ha, rfl⟩)))
    · exact .inr (.inl ⟨b, a :: rest, hb, rfl⟩)

/-- What the frame decoder reads (30_encoding R58): with the bytes that it reads, and what those bytes are. -/
theorem decodeFrame_ok {bytes rest : List Byte} {i : Instr} (h : decodeFrame bytes = .ok (i, rest)) :
    (∃ b, b ≠ startByte ∧ i = .resync b ∧ bytes = b :: rest) ∨
    (∃ a, a ≠ setColorsAction ∧ i = .unknown a ∧ bytes = startByte :: a :: rest) ∨
    ∃ len data, i = .setColors len data ∧ data.length ≤ len.toNat ∧
      bytes = startByte :: setColorsAction :: len :: (data ++ rest) := by
  obtain rfl | ⟨b, r, hb, rfl⟩ | rfl | ⟨a, r, ha, rfl⟩ | rfl | ⟨len, r, rfl⟩ := frameBytes_cases bytes
  · cases decodeFrame_nil.symm.trans h
  · cases (decodeFrame_resync hb r).symm.trans h
    exact .inl ⟨b, hb, rfl, rfl⟩
  · cases decodeFrame_start.symm.trans h
  · cases (decodeFrame_unknown ha r).symm.trans h
    exact .inr (.inl ⟨a, ha, rfl, rfl⟩)
  · cases decodeFrame_header.symm.trans h
  · cases (decodeFrame_setColors len r).symm.trans h
    exact .inr (.inr ⟨len, _, rfl, List.length_take_le _ _, by rw [List.take_append_drop]⟩)

/-- Where a byte is not there (43_store_write R127). -/
theorem decodeFrame_error {bytes : List Byte} {e : DecodeError} (h : decodeFrame bytes = .error e) :
    (bytes = [] ∧ e = .noInput) ∨ (bytes = [startByte] ∧ e = .noAction) ∨
      (bytes = [startByte, setColorsAction] ∧ e = .noLength) := by
  obtain rfl | ⟨b, r, hb, rfl⟩ | rfl | ⟨a, r, ha, rfl⟩ | rfl | ⟨len, r, rfl⟩ := frameBytes_cases bytes
  · cases decodeFrame_nil.symm.trans h
    exact .inl ⟨rfl, rfl⟩
  · cases (decodeFrame_resync hb r).symm.trans h
  · cases decodeFrame_start.symm.trans h
    exact .inr (.inl ⟨rfl, rfl⟩)
  · cases (decodeFrame_unknown ha r).symm.trans h
  · cases decodeFrame_header.symm.trans h
    exact .inr (.inr ⟨rfl, rfl⟩)
  · cases (decodeFrame_setColors len r).symm.trans h

/-! ## The counter decode -/

theorem decodeCnt_idle {x : Byte} (h : popcount x ≠ 1) : decodeCnt x = .idle x := if_neg h

/-- The counter decode drops no bit (30_encoding R51). -/
theorem decodeCnt_encodes (x : Byte) :
    (decodeCnt x).wellFormed = true ∧ (decodeCnt x).format = .cnt8 ∧ encode (decodeCnt x) = [x] := by
  by_cases h : popcount x = 1
  · revert x
    decide +kernel
  · rw [decodeCnt_idle h]
    exact ⟨bne_iff_ne.2 h, rfl, rfl⟩

/-! ## The statements -/

/-- Settles O1: the one-hot values by evaluation, and the other forms by what the decoders read of them. -/
theorem encodeThenDecode : Obligations.EncodeThenDecode := by
  intro i hwf
  cases i with
  | renderP0 | renderP1 | renderP2 | renderP3 | renderP4 | renderP5 | renderP6 | renderP7 => rfl
  | idle x =>
    show Except.ok (decodeCnt x, []) = _
    rw [decodeCnt_idle (bne_iff_ne.1 hwf)]
  | setColors len data =>
    have hlen : data.length ≤ len.toNat := of_decide_eq_true hwf
    show decodeFrame (startByte :: setColorsAction :: len :: data) = _
    rw [decodeFrame_setColors, List.take_of_length_le hlen, List.drop_of_length_le hlen]
  | unknown a => exact decodeFrame_unknown (bne_iff_ne.1 hwf) []
  | resync b => exact decodeFrame_resync (bne_iff_ne.1 hwf) []

/-- Settles O2: a counter value by the counter decode, a frame by the form of the bytes it was read from. -/
theorem decodeThenEncode : Obligations.DecodeThenEncode := by
  intro f bytes i rest h
  cases f with
  | cnt8 =>
    cases bytes with
    | nil => cases h
    | cons x bytes =>
      cases h
      obtain ⟨hwf, hformat, hencode⟩ := decodeCnt_encodes x
      exact ⟨hwf, hformat, by rw [hencode]; rfl⟩
  | pframe =>
    obtain ⟨b, hb, rfl, rfl⟩ | ⟨a, ha, rfl, rfl⟩ | ⟨len, data, rfl, hlen, rfl⟩ := decodeFrame_ok h
    · exact ⟨bne_iff_ne.2 hb, rfl, rfl⟩
    · exact ⟨bne_iff_ne.2 ha, rfl, rfl⟩
    · exact ⟨decide_eq_true hlen, rfl, rfl⟩

/-- Settles O3: the counter decode fails without a byte only, the frame decoder where its next byte is not there. -/
theorem onlyMissingBytesFailToDecode : Obligations.OnlyMissingBytesFailToDecode := by
  intro f bytes e h
  cases f with
  | cnt8 =>
    cases bytes with
    | nil => cases h; exact .inl ⟨rfl, rfl⟩
    | cons x bytes => cases h
  | pframe =>
    obtain hnone | ⟨hstart, he⟩ | ⟨hheader, he⟩ := decodeFrame_error h
    · exact .inl hnone
    · exact .inr (.inl ⟨rfl, hstart, he⟩)
    · exact .inr (.inr ⟨rfl, hheader, he⟩)

/-- Settles O4: each word by evaluation. -/
theorem sampleWordsDecode : Obligations.SampleWordsDecode := by
  unfold Obligations.SampleWordsDecode
  decide

/-- Settles O6: a one-hot value renders with itself as the mask, any other is idle. -/
theorem counterDecode : Obligations.CounterDecode :=
  fun x => ⟨Machine.decodeCnt_render x, decodeCnt_idle⟩

end Sys2Proof
end

section
/-! A placed table word is what the next step decodes (00_scope section 1; log 16). -/

namespace Sys2Proof.Machine

open Sys2Proof.Safety

theorem decodeTableWord_eq_some {nbits w : Nat} {i : Instr} (h : decodeTableWord nbits w = some i) :
    (nbits = 8 ∧ i = decodeCnt (BitVec.ofNat 8 w)) ∨
      (nbits = 16 ∧ ∃ rest, decodeFrame (frameBytesOfWord w) = .ok (i, rest)) := by
  unfold decodeTableWord at h
  split_ifs at h with h8 h16
  · exact .inl ⟨h8, (Option.some.inj h).symm⟩
  · refine .inr ⟨h16, ?_⟩
    cases hd : decodeFrame (frameBytesOfWord w) with
    | error e => rw [hd] at h; cases h
    | ok p => rw [hd] at h; cases h; exact ⟨p.2, rfl⟩

/-- The Length byte of a placed header is 0, so the bytes that wait behind it are left (log 16). -/
theorem decodeFrame_placed_append {w : Nat} {i : Instr} {rest : List Byte}
    (h : decodeFrame (frameBytesOfWord w) = .ok (i, rest)) (more : List Byte) :
    decodeFrame (frameBytesOfWord w ++ more) = .ok (i, rest ++ more) := by
  obtain ⟨b, hb, rfl, hbytes⟩ | ⟨a, ha, rfl, hbytes⟩ | ⟨len, data, rfl, -, hbytes⟩ := decodeFrame_ok h
  · rw [hbytes]
    exact decodeFrame_resync hb _
  · rw [hbytes]
    exact decodeFrame_unknown ha _
  · rw [hbytes]
    injection hbytes with _ hbytes
    injection hbytes with _ hbytes
    injection hbytes with hlen hdata
    obtain ⟨rfl, rfl⟩ := List.append_eq_nil_iff.1 hdata.symm
    subst hlen
    exact decodeFrame_setColors 0x00#8 more

/-- A tick on a machine that is idle and without a fault runs what the next counter value decodes to (40_scheduler
R70). -/
theorem State.tick0With_idle {s : State} (hb : s.busy = false) (hf : s.fault = none) :
    s.tick0With exec = exec (decodeCnt (s.cnt + 1#8)) s.tickEntry ∧ s.tickEntry = { s with
      t := s.t + 1, latch := false, cnt := s.cnt + 1#8,
      out := s.out ++ if s.latch then [(s.t + 1, .latchFall)] else [] } := by
  obtain ⟨hbusy, -⟩ | ⟨-, he⟩ := s.tickEntry_cases
  · rw [hb] at hbusy
    cases hbusy
  · refine ⟨?_, he⟩
    rw [State.tick0With, if_neg (by rw [he]; simp [hf]), State.gate, he]

/-- Between frames a move of the handler runs the frame that waits (43_store_write R127). -/
theorem State.pollWith_idle {s : State} {i : Instr} {rest : List Byte} (h : s.handler.phase = .idle)
    (hd : decodeFrame s.waiting = .ok (i, rest)) :
    s.pollWith exec = exec i (s.setRx (s.handler.rx.drop (s.handler.rx.length - rest.length))) := by
  simp [State.pollWith, State.timing_idle h, State.readOnWith, h, HandlerPhase.header, hd]

theorem State.placeFrame_waiting (bytes : List Byte) (s : State) :
    (s.placeFrame bytes).waiting = bytes ++ s.waiting := by
  simp [State.placeFrame, State.waiting, Function.comp_def]

/-- Settles O9: a placed counter value is one tick away, and the bytes of a placed frame are first in the queue. -/
theorem placedWordRunsNext : Obligations.PlacedWordRunsNext := by
  intro s nbits w i hi
  obtain ⟨rfl, rfl⟩ | ⟨rfl, rest, hd⟩ := decodeTableWord_eq_some hi
  · have hplace : s.withFetchWord 8 w = s.placeCounter (BitVec.ofNat 8 w) := rfl
    obtain ⟨hrun, hentry⟩ := State.tick0With_idle (s := (s.placeCounter (BitVec.ofNat 8 w)).dropLine) rfl rfl
    have hcnt : (s.placeCounter (BitVec.ofNat 8 w)).dropLine.cnt + 1#8 = BitVec.ofNat 8 w :=
      BitVec.sub_add_cancel _ _
    rw [hcnt] at hrun hentry
    refine ⟨(s.placeCounter (BitVec.ofNat 8 w)).dropLine.tickEntry, ?_, ?_⟩
    · rw [hplace, step_eq (l := .tick0) ⟨rfl, rfl⟩]
      exact hrun
    · rw [hentry]
      exact ⟨rfl, rfl, rfl, fun _ => ⟨rfl, rfl, rfl⟩, fun h => absurd h (by decide)⟩
  · have hplace : s.withFetchWord 16 w = s.placeFrame (frameBytesOfWord w) := rfl
    have hwait : decodeFrame (s.placeFrame (frameBytesOfWord w)).dropLine.waiting = .ok (i, rest ++ s.waiting) :=
      (congrArg decodeFrame (s.placeFrame_waiting _)).trans (decodeFrame_placed_append hd _)
    rw [hplace, step_eq (l := .poll) ⟨rfl, rfl⟩]
    exact ⟨_, State.pollWith_idle rfl hwait, rfl, rfl, rfl, fun h => absurd h (by decide), fun _ => ⟨rfl, rfl, rfl⟩⟩

end Sys2Proof.Machine
end

section
/-! The handler's invariant through every event (43_store_write R121, R127, R128). Of its clauses the one about the
phase fails for a moment where a data read of Length 0 begins, so the others are carried on their own. -/

namespace Sys2Proof.Safety

open Sys2Proof.Machine

/-- What holds of the handler's times and statuses whatever its phase (43_store_write R128, 30_encoding R60). -/
def HandlerQueuesInv (s : State) : Prop :=
  s.handler.began ≤ s.handler.now ∧ (s.handler.rx.all fun b => b.time ≤ s.handler.now) = true ∧
    s.handler.tx.all sentStatus = true

theorem HandlerInv.queues {s : State} (h : HandlerInv s) : HandlerQueuesInv s := h.2

theorem handlerInv_of_handler_eq {s s' : State} (hs : s'.handler = s.handler) (h : HandlerInv s) : HandlerInv s' := by
  unfold HandlerInv
  rwa [hs]

theorem HandlerQueuesInv.setRx {s : State} (h : HandlerQueuesInv s) {bytes : List Received}
    (hsub : bytes ⊆ s.handler.rx) : HandlerQueuesInv (s.setRx bytes) := by
  obtain ⟨hbegan, hrx, htx⟩ := h
  exact ⟨hbegan, List.all_eq_true.2 fun b hb => List.all_eq_true.1 hrx b (hsub hb), htx⟩

theorem HandlerQueuesInv.beginRead {s : State} (h : HandlerQueuesInv s) (p : HandlerPhase) :
    HandlerQueuesInv (s.beginRead p) := by
  obtain ⟨-, hrx, htx⟩ := h
  exact ⟨Nat.le_refl _, hrx, htx⟩

/-- A frame ends with a status of the described flow, and the input is drained (43_store_write R127). -/
theorem HandlerQueuesInv.endFrame {s : State} (h : HandlerQueuesInv s) {st : Status}
    (hst : sentStatus (statusByte st) = true) : HandlerInv (s.endFrame st) := by
  obtain ⟨hbegan, -, htx⟩ := h
  refine ⟨fun _ _ hp => (by cases hp), hbegan, rfl, ?_⟩
  simp [htx, hst]

theorem HandlerQueuesInv.setDataPhase {s : State} (h : HandlerQueuesInv s) {len : Byte} {k : Nat}
    (hk : k < len.toNat) : HandlerInv (s.setHandlerPhase (.data len k)) :=
  ⟨fun _ _ hp => (by cases hp; exact hk), h⟩

theorem burst_handler (k : Nat) (ds : List Byte) (s : State) : (burst k ds s).handler = s.handler := by
  rw [burst_frame]

/-- A data read that takes no more than is still to come ends the frame, or waits with bytes still to come; a burst
that raised wrote a byte, so there was one to come (43_store_write R121). -/
theorem HandlerQueuesInv.takeData {s : State} (h : HandlerQueuesInv s) (hf : s.fault = none) {len : Byte} {k : Nat}
    {data : List Byte} (hk : k + data.length ≤ len.toNat) : HandlerInv (s.takeData len k data) := by
  have hhandler := burst_handler k data (s.setHandlerPhase (.data len k))
  have hqueues : HandlerQueuesInv (burst k data (s.setHandlerPhase (.data len k))) := by
    unfold HandlerQueuesInv
    rw [hhandler]
    exact h
  unfold State.takeData
  dsimp only
  split_ifs with hfault hall
  · have hpos : 0 < data.length := by
      refine List.length_pos_of_ne_nil fun hnil => ?_
      rw [hnil, burst_nil, State.setHandlerPhase_fault, hf] at hfault
      cases hfault
    exact handlerInv_of_handler_eq hhandler (h.setDataPhase (by omega))
  · exact hqueues.endFrame rfl
  · exact hqueues.setDataPhase (by omega)

/-- A wait for a byte is a new read, or the same as before (43_store_write R127, R128). -/
theorem await_handlerInv (e : DecodeError) {s : State} (h : HandlerInv s) : HandlerInv (s.await e) := by
  cases e with
  | noInput => exact h
  | noAction | noLength =>
    unfold State.await
    dsimp only
    split_ifs
    · exact h
    · exact ⟨fun _ _ hp => (by cases hp), (h.queues.setRx (List.nil_subset _)).beginRead _⟩

theorem drainFreely_rx_subset (s : State) : s.drainFreely.handler.rx ⊆ s.handler.rx := by
  show (if s.nextFree then [] else s.handler.rx) ⊆ s.handler.rx
  split_ifs
  · exact List.nil_subset _
  · exact List.Subset.refl _

/-- The three instructions of the frame decode keep the invariant where no fault is recorded (43_store_write R127). -/
theorem exec_frame_handlerInv {bytes rest : List Byte} {i : Instr} {s s' : State}
    (hi : decodeFrame bytes = .ok (i, rest)) (h : HandlerInv s) (hf : s.fault = none) (hs : exec i s = .next s') :
    HandlerInv s' := by
  obtain ⟨len, data, rfl⟩ | ⟨action, rfl⟩ | ⟨start, rfl⟩ := decodeFrame_not_counter hi
  · obtain ⟨rfl, -⟩ := State.admitWrites_next hs
    exact (h.queues.beginRead _).takeData hf (by rw [Nat.zero_add]; exact List.length_take_le _ _)
  · injection hs with hs
    exact hs ▸ h.queues.endFrame rfl
  · injection hs with hs
    exact hs ▸ ⟨fun _ _ hp => (by cases hp), h.queues.setRx (drainFreely_rx_subset s)⟩

theorem State.readable_length_le (bound n : Nat) (s : State) : (s.readable bound n).length ≤ n :=
  List.length_take_le _ _

theorem readOnWith_handlerInv {bound : Nat} {s s' : State} (h : HandlerInv s) (hf : s.fault = none)
    (hs : s.readOnWith exec bound = .next s') : HandlerInv s' := by
  have hdrop (n : Nat) : HandlerQueuesInv (s.setRx (s.handler.rx.drop n)) :=
    h.queues.setRx (List.drop_subset _ _)
  obtain ⟨len, k, hp, -, rfl⟩ | ⟨i, rest, hi, hs⟩ | ⟨e, -, rfl⟩ := State.readOnWith_next hs
  · have hk := h.1 len k hp
    have hread := State.readable_length_le bound (len.toNat - k) s
    exact (hdrop _).takeData hf (by omega)
  · have hqueue : HandlerInv (s.setRx (s.handler.rx.drop (s.handler.rx.length - rest.length))) := ⟨h.1, hdrop _⟩
    exact exec_frame_handlerInv hi hqueue hf hs
  · exact await_handlerInv e h

theorem pollWith_handlerInv {s s' : State} (h : HandlerInv s) (hf : s.fault = none)
    (hs : s.pollWith exec = .next s') : HandlerInv s' := by
  obtain ⟨-, hs⟩ | ⟨-, rfl | hs⟩ | ⟨-, rfl⟩ := State.pollWith_next hs
  · exact readOnWith_handlerInv h hf hs
  · exact h.queues.endFrame rfl
  · exact readOnWith_handlerInv (s := s.drawFree) h hf hs
  · exact h.queues.endFrame rfl

/-- A byte arrives at the present moment (43_store_write R128). -/
theorem receive_handlerInv (b : Byte) {s : State} (h : HandlerInv s) : HandlerInv (s.receive b) := by
  obtain ⟨hphase, hbegan, hrx, htx⟩ := h
  refine ⟨hphase, hbegan, ?_, htx⟩
  rw [State.receive_handler, List.all_append, hrx]
  simp

theorem elapse_handlerInv (n : Nat) {s : State} (h : HandlerInv s) : HandlerInv (s.elapse n) := by
  obtain ⟨hphase, hbegan, hrx, htx⟩ := h
  refine ⟨hphase, Nat.le_add_right_of_le hbegan, List.all_eq_true.2 fun b hb => ?_, htx⟩
  have hb := of_decide_eq_true (List.all_eq_true.1 hrx b hb)
  exact decide_eq_true (Nat.le_add_right_of_le hb)

/-- The handler starts again at `RESET`, and what is left of its queue came before (log 15). -/
theorem restart_handlerInv {s : State} (h : HandlerInv s) : HandlerInv s.restart := by
  obtain ⟨-, hrx, -⟩ := h.queues.setRx (drainFreely_rx_subset s)
  exact ⟨fun _ _ hp => (by cases hp), Nat.zero_le _, hrx, rfl⟩

theorem performWith_polled_handlerInv {l : Line} (hl : polledLine l = true) {s s' : State} (h : HandlerInv s)
    (hf : s.fault = none) (hs : s.performWith exec l = .next s') : HandlerInv s' := by
  cases l with
  | wr a v =>
    obtain ⟨rfl, -⟩ := State.admitWrites_next hs
    exact handlerInv_of_handler_eq (by rw [State.write_frame]) h
  | setColors data =>
    obtain ⟨rfl, -⟩ := State.admitWrites_next hs
    exact handlerInv_of_handler_eq (burst_handler 0 data s) h
  | rx b => injection hs with hs; exact hs ▸ receive_handlerInv b h
  | elapse n => injection hs with hs; exact hs ▸ elapse_handlerInv n h
  | poll => exact pollWith_handlerInv h hf hs
  | reset | tick | tick0 | rstep => cases hl

/-- Settles O52: `RESET` starts the handler again, the polled lines keep its invariant, and the periodic ones leave it
alone. -/
theorem handlerInvariantKept : Obligations.HandlerInvariantKept := by
  intro s s' h hs
  have hdrop : HandlerInv s.dropLine := h
  obtain ⟨-, rfl⟩ | ⟨hl, hperform⟩ | ⟨hl, hperform⟩ := step_next_cases hs
  · exact restart_handlerInv hdrop
  · obtain ⟨hf, -⟩ | ⟨-, hreset, -⟩ := step_next hs
    · exact performWith_polled_handlerInv hl hdrop hf hperform
    · exact absurd hreset (ne_reset_of_polledLine hl)
  · exact handlerInv_of_handler_eq (State.performWith_periodicFrame hl hperform).handler hdrop

end Sys2Proof.Safety
end

section
/-! A burst that runs past the end of the store, and the script line that is a burst (30_encoding R62, 20_memory
R33). -/

namespace Sys2Proof.Machine

open Sys2Proof.Safety

/-- Where its first writes raise nothing, a burst goes on with the rest of them. -/
theorem burst_append (ds : List Byte) (es : List Byte) : ∀ (k : Nat) (s : State), (burst k ds s).fault = none →
    burst k (ds ++ es) s = burst (k + ds.length) es (burst k ds s) := by
  induction ds with
  | nil => intros; rfl
  | cons d ds ih =>
    intro k s h
    rw [burst_cons] at h
    rw [List.cons_append, burst_cons, burst_cons]
    split_ifs at h ⊢ with hw
    · rw [h] at hw
      cases hw
    · rw [ih (k + 1) _ h, List.length_cons, Nat.add_comm ds.length, Nat.add_assoc]

/-- A burst that runs past the store writes every byte up to its end, and records its first write outside
(43_store_write R123; log 7). -/
theorem burst_overruns {ds : List Byte} {k : Nat} {s : State} (hwf : s.store.wf = true) (hf : s.fault = none)
    (hk : k ≤ s.params.storeBytes) (hlen : s.params.storeBytes < k + ds.length) :
    ∃ m, burst k ds s = { s with
        store := m,
        fault := some (.storeOverrun s.params.storeBytes (ds.getD (s.params.storeBytes - k) 0x00#8)) } ∧
      m.wf = true ∧
      ∀ a, m.read a = if k ≤ a ∧ a < s.params.storeBytes then ds.getD (a - k) 0x00#8 else s.store.read a := by
  obtain ⟨n, hn⟩ : ∃ n, s.params.storeBytes = k + n := ⟨s.params.storeBytes - k, by omega⟩
  have hin : n < ds.length := by omega
  have htake : (ds.take n).length = n := by rw [List.length_take]; omega
  obtain ⟨m, hm, hmwf, hread⟩ := burst_inside (ds.take n) k s hwf hf (by omega)
  refine ⟨m, ?_, hmwf, fun a => ?_⟩
  · have hsplit : ds = ds.take n ++ ds[n] :: ds.drop (n + 1) := by
      rw [← List.drop_eq_getElem_cons, List.take_append_drop]
    have hget : ds.getD (s.params.storeBytes - k) 0x00#8 = ds[n] := by
      rw [hn, Nat.add_sub_cancel_left, List.getD_eq_getElem _ _ hin]
    have hout : ({ s with store := m } : State).write (k + n) ds[n] = { s with
        store := m, fault := some (.storeOverrun (k + n) ds[n]) } := by
      rw [State.write_outside (s := { s with store := m }) _ hn.le, State.raise]
      simp only [hf, Option.getD_none]
    rw [hget]
    conv_lhs => rw [hsplit]
    rw [burst_append _ _ _ _ (by rw [hm]; exact hf), hm, htake, burst_cons, hout, hn]
    exact if_pos rfl
  · rw [hread a, htake, hn]
    split_ifs with ha
    · simp [show a - k < n by omega]
    · rfl

/-- Where writes are admitted, and where there is none, a `SETCOLORS` line is a burst of the machine without that line
(30_encoding R62). -/
theorem step_setColors {s : State} {data : List Byte} (h : NextIs s (.setColors data))
    (hb : s.writesBarred = false ∨ data = []) : step s = .next (burst 0 data s.dropLine) := by
  rw [step_eq h]
  exact State.admitWrites_eq _ hb

/-- Settles O37: the line is a burst from address 0, which stays inside the store or runs past its end. -/
theorem scriptSetColorsWrites : Obligations.ScriptSetColorsWrites := by
  refine ⟨fun s data hinv hl hb hlen => ?_, fun s data hinv hl hb hlen => ?_⟩
  · obtain ⟨m, hm, -, hread⟩ :=
      burst_inside data 0 s.dropLine hinv.1 hl.1 (by simpa using hlen)
    refine ⟨m, ?_, fun a => ?_⟩
    · rw [step_setColors hl hb, hm]
      rfl
    · simpa using hread a
  · obtain ⟨m, hm, -, hread⟩ :=
      burst_overruns (ds := data) (k := 0) (s := s.dropLine) hinv.1 hl.1 (Nat.zero_le _) (by simpa using hlen)
    refine ⟨m, ?_, fun a => ?_⟩
    · rw [step_setColors hl (.inl hb), hm]
      rfl
    · simpa using hread a

end Sys2Proof.Machine
end

section
/-! The formats of 30_encoding R54 to R57 bit by bit: what a frame byte holds at each position, where a frame byte
stands in the serial stream, and where each sector does. -/

namespace Sys2Proof.Machine

open Sys2Proof.Config

/-! ## One frame byte -/

theorem getLsbD_bit_shiftLeft (b : Bool) (k q : Nat) :
    (BitVec.ofNat 8 b.toNat <<< k).getLsbD q = (decide (q < 8) && (k == q && b)) := by
  rw [BitVec.getLsbD_shiftLeft, BitVec.getLsbD_ofNat, Nat.testBit_bool_toNat]
  rcases Nat.lt_trichotomy q k with h | rfl | h
  · simp [h, Nat.ne_of_gt h]
  · simp
  · simp [Nat.sub_ne_zero_of_lt h, Nat.ne_of_lt h]

/-- The bits of a byte into which bits are entered one after the other (30_encoding R55). -/
theorem getLsbD_foldl_enterBit (pos : Nat → Nat) (bit : Nat → Bool) (q : Nat) (l : List Nat) : ∀ b : Byte,
    (l.foldl (fun b i => b ||| BitVec.ofNat 8 (bit i).toNat <<< pos i) b).getLsbD q =
      (b.getLsbD q || (decide (q < 8) && l.any fun i => pos i == q && bit i)) := by
  induction l with
  | nil => simp
  | cons i l ih =>
    intro b
    rw [List.foldl_cons, ih, BitVec.getLsbD_or, getLsbD_bit_shiftLeft, List.any_cons, Bool.and_or_distrib_left,
      Bool.or_assoc]

theorem bitPosition_le {align : PartialAlign} {n i : Nat} (hn : n ≤ 8) : bitPosition align n i ≤ 7 := by
  cases align <;> simp only [bitPosition] <;> omega

/-- The used positions of a byte are different (30_encoding R55). -/
theorem bitPosition_inj {align : PartialAlign} {n i k : Nat} (hn : n ≤ 8) (hi : i < n) (hk : k < n)
    (h : bitPosition align n i = bitPosition align n k) : i = k := by
  cases align <;> simp only [bitPosition] at h <;> omega

theorem getLsbD_assembleByte_used {align : PartialAlign} {n i : Nat} (bit : Nat → Bool) (hn : n ≤ 8) (hi : i < n) :
    (assembleByte align n bit).getLsbD (bitPosition align n i) = bit i := by
  rw [assembleByte, getLsbD_foldl_enterBit, BitVec.getLsbD_zero, Bool.false_or,
    decide_eq_true (Nat.lt_succ_of_le (bitPosition_le hn)), Bool.true_and, Bool.eq_iff_iff, List.any_eq_true]
  constructor
  · rintro ⟨k, hk, h⟩
    obtain ⟨hpos, hbit⟩ := (Bool.and_eq_true ..).mp h
    rwa [← bitPosition_inj hn (List.mem_range.1 hk) hi (beq_iff_eq.1 hpos)]
  · exact fun h => ⟨i, List.mem_range.2 hi, by simp [h]⟩

theorem getLsbD_assembleByte_unused {align : PartialAlign} {n q : Nat} (bit : Nat → Bool)
    (h : ∀ i, i < n → bitPosition align n i ≠ q) : (assembleByte align n bit).getLsbD q = false := by
  rw [assembleByte, getLsbD_foldl_enterBit, BitVec.getLsbD_zero, Bool.false_or, Bool.and_eq_false_iff]
  refine .inr (List.any_eq_false.2 fun i hi => ?_)
  simp [h i (List.mem_range.1 hi)]

theorem usedBits_le (p : Params) (j : Nat) : usedBits p j ≤ 8 := Nat.min_le_left _ _

/-- Settles O27: a channel byte is assembled from its used bits at different positions. -/
theorem frameByteBits : Obligations.FrameByteBits :=
  fun p _ _ _ j _ =>
    ⟨fun _ hi => getLsbD_assembleByte_used _ (usedBits_le p j) hi, fun _ hq => getLsbD_assembleByte_unused _ hq⟩

/-! ## The stream -/

theorem bitsMsbFirst_length (b : Byte) : (bitsMsbFirst b).length = 8 := rfl

theorem bitsMsbFirst_getElem? (b : Byte) {i : Nat} (hi : i < 8) : (bitsMsbFirst b)[i]? = some (b.getLsbD (7 - i)) := by
  rw [bitsMsbFirst, List.getElem?_map, List.getElem?_range hi]
  rfl

theorem frameBitStream_cons (b : Byte) (bytes : List Byte) :
    frameBitStream (b :: bytes) = bitsMsbFirst b ++ frameBitStream bytes := List.flatMap_cons

theorem frameBitStream_length (bytes : List Byte) : (frameBitStream bytes).length = 8 * bytes.length := by
  induction bytes with
  | nil => rfl
  | cons b bytes ih =>
    rw [frameBitStream_cons, List.length_append, ih, bitsMsbFirst_length, List.length_cons]
    omega

/-- Stream bit `8*f + i` is bit `7 - i` of frame byte `f` (30_encoding R57). -/
theorem frameBitStream_getElem? (bytes : List Byte) {i : Nat} (hi : i < 8) : ∀ f : Nat,
    (frameBitStream bytes)[8 * f + i]? = bytes[f]?.map fun b => b.getLsbD (7 - i) := by
  induction bytes with
  | nil => exact fun _ => rfl
  | cons b bytes ih =>
    intro f
    rw [frameBitStream_cons]
    cases f with
    | zero =>
      rw [Nat.mul_zero, Nat.zero_add, List.getElem?_append_left hi, bitsMsbFirst_getElem? b hi]
      rfl
    | succ f =>
      rw [List.getElem?_append_right (by rw [bitsMsbFirst_length]; omega), bitsMsbFirst_length,
        show 8 * (f + 1) + i - 8 = 8 * f + i by omega, ih f, List.getElem?_cons_succ]

theorem frame_length (p : Params) (store : Memory) (m : Byte) : (frame p store m).length = p.frameBytes := by
  rw [frame, List.length_map, List.length_range]

theorem frame_stream_length (p : Params) (store : Memory) (m : Byte) :
    (frameBitStream (frame p store m)).length = p.frameBits := by
  rw [frameBitStream_length, frame_length]
  rfl

theorem channelOfIndex_channelIndex (ch : Channel) : channelOfIndex (channelIndex ch) = ch := by
  cases ch <;> rfl

theorem channelIndex_lt (ch : Channel) : channelIndex ch < 3 := by
  cases ch <;> decide

theorem channelIndex_channelOfIndex {c : Nat} (h : c < 3) : channelIndex (channelOfIndex c) = c := by
  match c, h with
  | 0, _ | 1, _ | 2, _ => rfl

/-- Byte `j` of a channel is a byte of the frame (30_encoding R54). -/
theorem frame_getElem?_channel (p : Params) (store : Memory) (m : Byte) (ch : Channel) {j : Nat}
    (hj : j < p.chBytes) :
    (frame p store m)[channelIndex ch * p.chBytes + j]? = some (channelByte p store m ch j) := by
  have hpos : 0 < p.chBytes := by omega
  have hdiv : (channelIndex ch * p.chBytes + j) / p.chBytes = channelIndex ch := by
    rw [Nat.add_comm, Nat.add_mul_div_right _ _ hpos, Nat.div_eq_of_lt hj, Nat.zero_add]
  have hmod : (channelIndex ch * p.chBytes + j) % p.chBytes = j := by
    rw [Nat.add_comm, Nat.add_mul_mod_self_right, Nat.mod_eq_of_lt hj]
  have hlt : channelIndex ch * p.chBytes + j < p.frameBytes := by
    have hch := Nat.mul_le_mul_right p.chBytes (Nat.succ_le_of_lt (channelIndex_lt ch))
    rw [Nat.succ_mul] at hch
    simp only [Params.frameBytes]
    omega
  rw [frame, List.getElem?_map, List.getElem?_range hlt, Option.map_some, frameByte, hdiv, hmod,
    channelOfIndex_channelIndex]

/-- Where the stream carries the bit at position `7 - i` of byte `j` of a channel (30_encoding R57). -/
theorem frame_stream_getElem? (p : Params) (store : Memory) (m : Byte) (ch : Channel) {i j : Nat} (hi : i < 8)
    (hj : j < p.chBytes) :
    (frameBitStream (frame p store m))[8 * (channelIndex ch * p.chBytes + j) + i]? =
      some ((channelByte p store m ch j).getLsbD (7 - i)) := by
  rw [frameBitStream_getElem? _ hi, frame_getElem?_channel p store m ch hj, Option.map_some]

/-! ## The sectors -/

/-- The `i`-th used bit of byte `j` of a channel, in the stream (30_encoding R55, R57). -/
theorem streamIndex_used {p : Params} {i j : Nat} (ch : Channel) (hi : i < usedBits p j) :
    streamIndex p (p.numSectors - 1 - 8 * j - i) ch =
      8 * (channelIndex ch * p.chBytes + j) + (7 - bitPosition p.partialAlign (usedBits p j) i) := by
  have hused : usedBits p j = min 8 (p.numSectors - 8 * j) := rfl
  have hbytes : p.chBytes = (p.numSectors + 7) / 8 := rfl
  have hpad : p.padBits = 8 * p.chBytes - p.numSectors := rfl
  have hassoc : channelIndex ch * (8 * p.chBytes) = 8 * (channelIndex ch * p.chBytes) := Nat.mul_left_comm ..
  cases ha : p.partialAlign with
  | left =>
    simp only [streamIndex, ha, bitPosition]
    omega
  | right =>
    simp only [streamIndex, ha, bitPosition]
    split_ifs <;> omega

/-- The place of a sector's bit: byte `j`, used bit `i` (30_encoding R54). -/
theorem exists_usedBit_of_sector {p : Params} {s : Nat} (hs : s < p.numSectors) :
    ∃ i j, j < p.chBytes ∧ i < usedBits p j ∧ s = p.numSectors - 1 - 8 * j - i := by
  refine ⟨(p.numSectors - 1 - s) % 8, (p.numSectors - 1 - s) / 8, ?_, ?_, ?_⟩
  · simp only [Params.chBytes]
    omega
  · simp only [usedBits]
    omega
  · omega

theorem stream_getElem?_streamIndex {p : Params} {s : Nat} (store : Memory) (m : Byte) (ch : Channel)
    (hs : s < p.numSectors) :
    (frameBitStream (frame p store m))[streamIndex p s ch]? = some (sectorBit p store m s ch) := by
  obtain ⟨i, j, hj, hi, rfl⟩ := exists_usedBit_of_sector hs
  have hpos := bitPosition_le (align := p.partialAlign) (i := i) (usedBits_le p j)
  rw [streamIndex_used ch hi, frame_stream_getElem? p store m ch (by omega) hj, Nat.sub_sub_self hpos, channelByte,
    getLsbD_assembleByte_used _ (usedBits_le p j) hi]

/-- Settles O28: each sector is a used bit of its channel, and the stream carries the bytes bit 7 first. -/
theorem streamPlacesSectors : Obligations.StreamPlacesSectors :=
  fun p store m _ ch hs => ⟨frame_stream_length p store m, stream_getElem?_streamIndex store m ch hs⟩

/-- A stream bit that carries no sector is 0 (30_encoding R56). -/
theorem stream_getElem?_pad {p : Params} {x : Nat} (store : Memory) (m : Byte) (hx : x < p.frameBits)
    (hpad : ∀ s ch, s < p.numSectors → streamIndex p s ch ≠ x) :
    (frameBitStream (frame p store m))[x]? = some false := by
  have hpos : 0 < p.chBytes := by simp only [Params.chBytes, Params.numSectors]; omega
  have hc : x / 8 / p.chBytes < 3 := by
    rw [Nat.div_lt_iff_lt_mul hpos]
    simp only [Params.frameBits, Params.frameBytes] at hx
    omega
  have hj : x / 8 % p.chBytes < p.chBytes := Nat.mod_lt _ hpos
  have hplace : x =
      8 * (channelIndex (channelOfIndex (x / 8 / p.chBytes)) * p.chBytes + x / 8 % p.chBytes) + x % 8 := by
    rw [channelIndex_channelOfIndex hc, Nat.mul_comm _ p.chBytes, Nat.div_add_mod, Nat.div_add_mod]
  have hi : x % 8 < 8 := Nat.mod_lt _ (by decide)
  generalize x % 8 = i at hplace hi
  generalize x / 8 % p.chBytes = j at hplace hj
  generalize channelOfIndex (x / 8 / p.chBytes) = ch at hplace
  rw [hplace, frame_stream_getElem? p store m ch hi hj]
  refine congrArg some (getLsbD_assembleByte_unused _ fun k hk heq => ?_)
  refine hpad (p.numSectors - 1 - 8 * j - k) ch (by simp only [Params.numSectors]; omega) ?_
  rw [streamIndex_used ch hk, heq, Nat.sub_sub_self (by omega), hplace]

/-- The chain ends with the last stream bit nearest to the block (42_serializer R112, R113). -/
theorem chainPosition_add_streamIndex {p : Params} {s : Nat} (ch : Channel) (hs : s < p.numSectors) :
    chainPosition p s ch + streamIndex p s ch + 1 = p.frameBits := by
  have hbytes : p.chBytes = (p.numSectors + 7) / 8 := rfl
  have hpad : p.padBits = 8 * p.chBytes - p.numSectors := rfl
  have hbits : p.frameBits = 8 * (3 * p.chBytes) := rfl
  cases ha : p.partialAlign with
  | left => cases ch <;> simp only [chainPosition, streamIndex, ha, channelIndex] <;> omega
  | right => cases ch <;> simp only [chainPosition, streamIndex, ha, channelIndex] <;> split_ifs <;> omega

end Sys2Proof.Machine
end

section
/-! A whole pass in closed form. `passAt` is the machine inside a pass, before it reads a given sector of a given
channel: the frame bytes so far have been sent, and the byte being assembled holds the used bits so far. One micro-step
leads from each such state to the next, so a pass sends exactly the frame of 30_encoding R54 (41_render R92). -/

namespace Sys2Proof.Machine

open Sys2Proof.Config Sys2Proof.Safety

/-! ## What the serializer sends -/

/-- The shift stage after bits are shifted in, the first of them farthest from the block (42_serializer R112). -/
def stageAfter (bits sh : List Bool) : List Bool := (bits.reverse ++ sh).take sh.length

theorem take_append_take (l m : List Bool) (n : Nat) : (l ++ m.take n).take n = (l ++ m).take n := by
  rw [List.take_append, List.take_append, List.take_take, Nat.min_eq_left (Nat.sub_le n l.length)]

theorem stageAfter_length (bits sh : List Bool) : (stageAfter bits sh).length = sh.length := by
  rw [stageAfter, List.length_take, List.length_append]
  omega

theorem stageAfter_append (bits more sh : List Bool) :
    stageAfter (bits ++ more) sh = stageAfter more (stageAfter bits sh) := by
  rw [stageAfter, stageAfter, stageAfter_length, stageAfter, take_append_take, List.reverse_append, List.append_assoc]

/-- A chain as long as what is sent holds just that (42_serializer R112). -/
theorem stageAfter_whole {bits sh : List Bool} (h : sh.length = bits.length) : stageAfter bits sh = bits.reverse := by
  rw [stageAfter, h, List.take_append_of_le_length (List.length_reverse ..).ge, ← List.length_reverse,
    List.take_length]

theorem foldl_bitOut_sh (bits : List Bool) : ∀ s : State,
    (bits.foldl State.bitOut s).chain.sh = stageAfter bits s.chain.sh := by
  induction bits with
  | nil => exact fun s => (List.take_length ..).symm
  | cons x bits ih =>
    intro s
    rw [List.foldl_cons, ih, ← List.singleton_append, stageAfter_append]
    rfl

/-- `SHIFT` as one record (42_serializer R106, R107, R112; log 17). -/
theorem State.shiftByte_eq (b : Byte) (s : State) :
    s.shiftByte b = { s with
      out := s.out ++ [(s.t, .shift b)], sdo := b.getLsbD 0, sck := false,
      chain := { s.chain with sh := stageAfter (bitsMsbFirst b) s.chain.sh } } := by
  have hframe := (State.shiftByte_frame b s).1
  have hsh : (s.shiftByte b).chain.sh = stageAfter (bitsMsbFirst b) s.chain.sh := foldl_bitOut_sh _ s
  have hsdo : (s.shiftByte b).sdo = b.getLsbD 0 := rfl
  have hsck : (s.shiftByte b).sck = false := rfl
  rwa [hsh, hsdo, hsck] at hframe

/-- The bytes `bytes` are handed over one after the other (42_serializer R106). -/
def State.sendBytes (bytes : List Byte) (s : State) : State := bytes.foldl (fun u b => u.shiftByte b) s

theorem State.sendBytes_cons (b : Byte) (bytes : List Byte) (s : State) :
    s.sendBytes (b :: bytes) = (s.shiftByte b).sendBytes bytes := by
  rw [State.sendBytes, State.sendBytes, List.foldl_cons]

theorem State.sendBytes_concat (bytes : List Byte) (b : Byte) (s : State) :
    s.sendBytes (bytes ++ [b]) = (s.sendBytes bytes).shiftByte b := List.foldl_append

/-- Sending moves the trace, the data and clock outputs and the shift stage (42_serializer R106, R112). -/
theorem State.sendBytes_eq (bytes : List Byte) : ∀ s : State,
    s.sendBytes bytes = { s with
      out := s.out ++ (bytes.map Event.shift).map (fun e => (s.t, e)),
      sdo := (s.sendBytes bytes).sdo, sck := (s.sendBytes bytes).sck,
      chain := { s.chain with sh := stageAfter (frameBitStream bytes) s.chain.sh } } := by
  induction bytes with
  | nil =>
    intro s
    have hsh : stageAfter (frameBitStream []) s.chain.sh = s.chain.sh := List.take_length ..
    rw [hsh, List.map_nil, List.map_nil, List.append_nil]
    rfl
  | cons b bytes ih =>
    intro s
    rw [State.sendBytes_cons, ih, State.shiftByte_eq, frameBitStream_cons, stageAfter_append, List.map_cons,
      List.map_cons, List.append_assoc]
    rfl

/-- After a byte the clock is low (42_serializer R107; log 17). -/
theorem State.sendBytes_sck {bytes : List Byte} (h : bytes ≠ []) (s : State) : (s.sendBytes bytes).sck = false := by
  rw [← List.dropLast_concat_getLast h, State.sendBytes_concat]
  rfl

theorem State.sendBytes_params (bytes : List Byte) (s : State) : (s.sendBytes bytes).params = s.params := by
  rw [State.sendBytes_eq]

theorem State.sendBytes_store (bytes : List Byte) (s : State) : (s.sendBytes bytes).store = s.store := by
  rw [State.sendBytes_eq]

/-! ## The byte being assembled -/

theorem assembleByte_zero (align : PartialAlign) (bit : Nat → Bool) : assembleByte align 0 bit = 0x00#8 := rfl

/-- `PACK` enters the next used bit, for both alignments (41_render R89, 30_encoding R55). -/
theorem packBit_assembleByte (align : PartialAlign) (bit : Nat → Bool) {n : Nat} (hn : n ≤ 7) :
    packBit align (bit n) (assembleByte align n bit) n = assembleByte align (n + 1) bit := by
  cases align with
  | left => rw [assembleByte, assembleByte, List.range_succ, List.foldl_append]; rfl
  | right =>
    refine BitVec.eq_of_getLsbD_eq fun q hq => ?_
    have hpos (i : Nat) : bitPosition .right (n + 1) i = n - i := by simp only [bitPosition]; omega
    rw [packBit, BitVec.getLsbD_or, BitVec.getLsbD_shiftLeft, BitVec.getLsbD_ofNat, Nat.testBit_bool_toNat]
    by_cases hle : q ≤ n
    · have hnew := getLsbD_assembleByte_used (align := .right) (i := n - q) bit (Nat.succ_le_succ hn) (by omega)
      rw [hpos, Nat.sub_sub_self hle] at hnew
      rw [hnew]
      cases q with
      | zero => simp
      | succ q =>
        have hold := getLsbD_assembleByte_used (align := .right) (n := n) (i := n - (q + 1)) bit (by omega) (by omega)
        rw [show bitPosition .right n (n - (q + 1)) = q by simp only [bitPosition]; omega] at hold
        simp [hq, hold]
    · rw [getLsbD_assembleByte_unused bit fun i hi => by simp only [bitPosition]; omega,
        getLsbD_assembleByte_unused bit fun i hi => by simp only [bitPosition]; omega]
      simp [show q ≠ 0 by omega]

/-! ## The states of a pass -/

/-- The sequencer of a pass over `store` with mask `m`, `d` sectors of channel `ch` read (41_render R87, R89). -/
def Sequencer.passAt (p : Params) (store : Memory) (m : Byte) (ch : Channel) (d : Nat) : Sequencer :=
  { phase := .busy, mask := m, ch := ch, sec := p.lastSector - d
    acc := assembleByte p.partialAlign (d % 8) fun i => sectorBit p store m (p.numSectors - 1 - 8 * (d / 8) - i) ch
    nacc := BitVec.ofNat 4 (d % 8) }

/-- The sequencer when every sector of channel `ch` has been read and its last byte handed over (41_render R90). -/
def Sequencer.channelDone (m : Byte) (ch : Channel) : Sequencer :=
  { phase := .busy, mask := m, ch := ch, sec := 0, acc := 0x00#8, nacc := 0#4 }

/-- `s` after the first `n` bytes of the frame (30_encoding R54). -/
def State.sendFrame (m : Byte) (n : Nat) (s : State) : State := s.sendBytes ((frame s.params s.store m).take n)

/-- `s` inside a pass with mask `m` that it began, `d` sectors of channel `ch` read. -/
def State.passAt (m : Byte) (ch : Channel) (d : Nat) (s : State) : State :=
  (s.sendFrame m (channelIndex ch * s.params.chBytes + d / 8)).setRs (Sequencer.passAt s.params s.store m ch d)

/-- `s` after the last micro-step of channel `ch` (41_render R91). -/
def State.passAfter (m : Byte) (ch : Channel) (s : State) : State :=
  match nextChannel ch with
  | some ch => s.passAt m ch 0
  | none => ((s.sendFrame m s.params.frameBytes).setRs (Sequencer.channelDone m ch)).finish

theorem State.sendFrame_params (m : Byte) (n : Nat) (s : State) : (s.sendFrame m n).params = s.params :=
  State.sendBytes_params _ s

theorem State.sub_le_sendFrame_lastSector (m : Byte) (n d : Nat) (s : State) :
    s.params.lastSector - d ≤ (s.sendFrame m n).params.lastSector := by
  rw [State.sendFrame_params]
  exact Nat.sub_le _ _

theorem State.sendFrame_store (m : Byte) (n : Nat) (s : State) : (s.sendFrame m n).store = s.store :=
  State.sendBytes_store _ s

theorem State.sendFrame_channel_succ (m : Byte) (ch : Channel) {j : Nat} {s : State} (hj : j < s.params.chBytes) :
    s.sendFrame m (channelIndex ch * s.params.chBytes + j + 1) =
      (s.sendFrame m (channelIndex ch * s.params.chBytes + j)).shiftByte (channelByte s.params s.store m ch j) := by
  rw [State.sendFrame, List.take_add_one, frame_getElem?_channel s.params s.store m ch hj]
  exact State.sendBytes_concat _ _ s

theorem State.setRs_setRs (r r' : Sequencer) (s : State) : (s.setRs r).setRs r' = s.setRs r' := rfl

/-- A `SHIFT` reads and moves nothing of the sequencer (42_serializer R106). -/
theorem State.setRs_shiftByte (b : Byte) (r : Sequencer) (s : State) :
    (s.setRs r).shiftByte b = (s.shiftByte b).setRs r := by
  rw [State.shiftByte_eq, State.shiftByte_eq]
  rfl

/-! ## One micro-step -/

theorem State.flushDue_iff {s : State} (h : s.rs.sec ≤ s.params.lastSector) :
    s.flushDue = true ↔ s.rs.nacc = 8#4 ∨ s.rs.sec = 0 := by
  rw [State.flushDue, Sequencer.sector_eq h, Bool.or_eq_true, beq_iff_eq, beq_iff_eq]

/-- `FLUSH` where it is due (41_render R90). -/
theorem State.setRs_flush_due {s : State} {r : Sequencer} (h : r.sec ≤ s.params.lastSector)
    (hdue : r.nacc = 8#4 ∨ r.sec = 0) :
    (s.setRs r).flush = (s.shiftByte r.acc).setRs { r with acc := 0x00#8, nacc := 0#4 } := by
  rw [State.flush, if_pos ((State.flushDue_iff (s := s.setRs r) h).2 hdue), State.setRs_rs, State.setRs_shiftByte]
  rfl

/-- A byte that is handed over has all its used bits (30_encoding R55, 41_render R90). -/
theorem usedBits_of_due {p : Params} {d : Nat} (hd : d ≤ p.lastSector) (hdue : d % 8 = 7 ∨ d = p.lastSector) :
    usedBits p (d / 8) = d % 8 + 1 := by
  simp only [usedBits, Params.numSectors]
  omega

theorem State.passAt_busy (m : Byte) (ch : Channel) (d : Nat) (s : State) : (s.passAt m ch d).busy = true := rfl

theorem State.passAt_params (m : Byte) (ch : Channel) (d : Nat) (s : State) :
    (s.passAt m ch d).params = s.params := State.sendFrame_params _ _ s

theorem State.passAt_store (m : Byte) (ch : Channel) (d : Nat) (s : State) :
    (s.passAt m ch d).store = s.store := State.sendFrame_store _ _ s

/-- `EXTRACT` and `PACK` enter the bit of the sector that is read (41_render R88, R89). -/
theorem State.passAt_pack (m : Byte) (ch : Channel) {d : Nat} {s : State} (hd : d ≤ s.params.lastSector) :
    (s.passAt m ch d).pack (sectorBit s.params s.store m (s.params.lastSector - d) ch) =
      (s.sendFrame m (channelIndex ch * s.params.chBytes + d / 8)).setRs
        { Sequencer.passAt s.params s.store m ch d with
          acc := assembleByte s.params.partialAlign (d % 8 + 1) fun i =>
            sectorBit s.params s.store m (s.params.numSectors - 1 - 8 * (d / 8) - i) ch
          nacc := BitVec.ofNat 4 (d % 8 + 1) } := by
  have hsector : s.params.lastSector - d = s.params.numSectors - 1 - 8 * (d / 8) - d % 8 := by
    simp only [Params.numSectors]
    omega
  have hnacc : (BitVec.ofNat 4 (d % 8)).toNat = d % 8 := by
    rw [BitVec.toNat_ofNat]
    omega
  rw [State.pack, State.passAt_params, State.passAt, State.setRs_setRs, State.setRs_rs, Sequencer.passAt, hnacc,
    BitVec.ofNat_add, hsector]
  have hpack := packBit_assembleByte s.params.partialAlign
    (fun i => sectorBit s.params s.store m (s.params.numSectors - 1 - 8 * (d / 8) - i) ch) (n := d % 8) (by omega)
  rw [hpack]

theorem State.passAt_microStep (m : Byte) (ch : Channel) (d : Nat) (s : State) :
    (s.passAt m ch d).microStep = .next
      ((s.passAt m ch d).pack (sectorBit s.params s.store m (s.params.lastSector - d) ch)).flush.advance := by
  have hsec : (s.passAt m ch d).rs.sec ≤ (s.passAt m ch d).params.lastSector := by
    rw [State.passAt_params]
    exact Nat.sub_le _ _
  have haddr := State.readAddr_eq hsec
  rw [State.microStep_eq (State.passAt_busy m ch d s) (haddr ▸ channelAddr_lt _ hsec), haddr, State.passAt_store,
    State.passAt_params]
  rfl

theorem ofNat_succ_eq_eight_iff {n : Nat} (hn : n < 8) : BitVec.ofNat 4 (n + 1) = 8#4 ↔ n = 7 := by
  rw [← BitVec.toNat_inj, BitVec.toNat_ofNat]
  simp only [BitVec.reduceToNat]
  omega

/-- Where a byte is not complete the micro-step goes on to the sector below (41_render R91). -/
theorem State.passAt_microStep_not_due (m : Byte) (ch : Channel) {d : Nat} {s : State} (hd : d < s.params.lastSector)
    (h7 : d % 8 ≠ 7) : (s.passAt m ch d).microStep = .next (s.passAt m ch (d + 1)) := by
  have hdiv : (d + 1) / 8 = d / 8 := by omega
  have hmod : (d + 1) % 8 = d % 8 + 1 := by omega
  have hsec := s.sub_le_sendFrame_lastSector m (channelIndex ch * s.params.chBytes + d / 8) d
  rw [State.passAt_microStep, State.passAt_pack m ch hd.le, State.flush_of_not_due, State.advance_of_sec_pos hsec,
    State.setRs_setRs, State.passAt, Sequencer.passAt, Sequencer.passAt, hdiv, hmod]
  · rfl
  · exact Nat.sub_pos_of_lt hd
  · rw [State.flushDue_iff hsec, not_or, State.setRs_rs]
    exact ⟨fun h => h7 ((ofNat_succ_eq_eight_iff (Nat.mod_lt d (by decide))).1 h), Nat.sub_ne_zero_of_lt hd⟩

/-- Where a byte is complete, or the sector is the last of the channel, the byte that is handed over is the next of the
frame (41_render R90, 30_encoding R55). -/
theorem State.passAt_flush_due (m : Byte) (ch : Channel) {d : Nat} {s : State} (hd : d ≤ s.params.lastSector)
    (hdue : d % 8 = 7 ∨ d = s.params.lastSector) :
    ((s.passAt m ch d).pack (sectorBit s.params s.store m (s.params.lastSector - d) ch)).flush =
      (s.sendFrame m (channelIndex ch * s.params.chBytes + d / 8 + 1)).setRs
        { Sequencer.channelDone m ch with sec := s.params.lastSector - d } := by
  have hj : d / 8 < s.params.chBytes := by
    rw [chBytes_eq]
    exact Nat.lt_succ_of_le (Nat.div_le_div_right hd)
  have hsec := s.sub_le_sendFrame_lastSector m (channelIndex ch * s.params.chBytes + d / 8) d
  rw [State.passAt_pack m ch hd, State.setRs_flush_due hsec, State.sendFrame_channel_succ m ch hj, channelByte,
    usedBits_of_due hd hdue]
  · rfl
  · rw [ofNat_succ_eq_eight_iff (Nat.mod_lt d (by decide))]
    exact hdue.imp_right fun h => Nat.sub_eq_zero_of_le h.ge

theorem State.passAt_microStep_succ (m : Byte) (ch : Channel) {d : Nat} {s : State} (hd : d < s.params.lastSector) :
    (s.passAt m ch d).microStep = .next (s.passAt m ch (d + 1)) := by
  by_cases h7 : d % 8 = 7
  · have hdiv : (d + 1) / 8 = d / 8 + 1 := by omega
    have hmod : (d + 1) % 8 = 0 := by omega
    rw [State.passAt_microStep, State.passAt_flush_due m ch hd.le (.inl h7), State.advance_of_sec_pos,
      State.setRs_setRs, State.passAt, Sequencer.passAt, hdiv, hmod, assembleByte_zero]
    · rfl
    · exact s.sub_le_sendFrame_lastSector m _ d
    · exact Nat.sub_pos_of_lt hd
  · exact State.passAt_microStep_not_due m ch hd h7

/-- The last sector of a channel (41_render R91). -/
theorem State.passAt_microStep_last (m : Byte) (ch : Channel) (s : State) :
    (s.passAt m ch s.params.lastSector).microStep = .next (s.passAfter m ch) := by
  have hbytes : channelIndex ch * s.params.chBytes + s.params.lastSector / 8 + 1 =
      (channelIndex ch + 1) * s.params.chBytes := by
    rw [Nat.add_assoc, ← chBytes_eq, Nat.succ_mul]
  rw [State.passAt_microStep, State.passAt_flush_due m ch (Nat.le_refl _) (.inr rfl), hbytes, Nat.sub_self]
  cases ch with
  | blue | green =>
    rw [State.advance_of_sec_zero_next rfl rfl, State.setRs_params, State.sendFrame_params]
    rfl
  | red => exact congrArg Host.Outcome.next (State.advance_of_sec_zero_last rfl rfl)

/-! ## The pass -/

/-- The micro-steps of one channel (41_render R87). -/
theorem State.runPass_channel (m : Byte) (ch : Channel) (n : Nat) {s : State} :
    ∀ e d : Nat, d + e = s.params.lastSector → runPass (e + 1 + n) (s.passAt m ch d) = runPass n (s.passAfter m ch) := by
  intro e
  induction e with
  | zero =>
    rintro d rfl
    rw [Nat.add_right_comm, runPass, if_pos (State.passAt_busy ..), Nat.zero_add]
    exact congrArg (andThen · (runPass n)) (State.passAt_microStep_last m ch s)
  | succ e ih =>
    intro d hd
    rw [Nat.add_right_comm, runPass, if_pos (State.passAt_busy ..), State.passAt_microStep_succ m ch (by omega)]
    exact ih (d + 1) (by omega)

/-- The machine when the pass with mask `m` that `s` starts has ended (41_render R91, R93). -/
def State.passEnd (m : Byte) (s : State) : State := (s.startPass m).passAfter m .red

/-- A pass that is started runs to its end, one micro-step for each sector of each channel (41_render R92). -/
theorem State.finishPass_startPass (m : Byte) (s : State) : (s.startPass m).finishPass = .next (s.passEnd m) := by
  have hstart : s.startPass m = (s.startPass m).passAt m .blue 0 := by
    rw [State.passAt, channelIndex, Nat.zero_mul, State.sendFrame, List.take_zero]
    rfl
  have hreads : (s.startPass m).params.readsPerPass =
      s.params.lastSector + 1 + (s.params.lastSector + 1 + (s.params.lastSector + 1 + 0)) := by
    simp only [State.startPass_params, Params.readsPerPass, Params.numSectors]
    omega
  have hchannel (ch : Channel) (n : Nat) := State.runPass_channel m ch n (s := s.startPass m) s.params.lastSector 0
    (Nat.zero_add _)
  rw [State.finishPass, hreads]
  conv_lhs => rw [hstart]
  rw [hchannel .blue]
  refine (hchannel .green _).trans ?_
  exact hchannel .red 0

/-- A whole pass: the trace and the chain take the frame of the format, and nothing changes but the sequencer, the
outputs, the chain and the trace (41_render R92, R93, 42_serializer R111, R112; log 17). -/
theorem State.passEnd_eq (m : Byte) (s : State) :
    s.passEnd m = { s with
      rs := (s.passEnd m).rs, latch := true, sdo := (s.passEnd m).sdo, sck := false, txn := false,
      out := s.out ++ (passEvents (frame s.params s.store m)).map (fun e => (s.t, e)),
      chain :=
        { sh := stageAfter (frameBitStream (frame s.params s.store m)) s.chain.sh
          ho := stageAfter (frameBitStream (frame s.params s.store m)) s.chain.sh } } := by
  have hend : s.passEnd m = (((s.startPass m).sendBytes (frame s.params s.store m)).setRs
      (Sequencer.channelDone m .red)).finish := by
    rw [← List.take_of_length_le (frame_length s.params s.store m).le]
    rfl
  have hsck : ((s.startPass m).sendBytes (frame s.params s.store m)).sck = false := by
    refine State.sendBytes_sck (List.ne_nil_of_length_pos ?_) _
    simp only [frame_length, Params.frameBytes, chBytes_eq]
    omega
  have hout : s.out ++ (passEvents (frame s.params s.store m)).map (fun e => (s.t, e)) =
      s.out ++ [(s.t, .txnBegin)] ++ ((frame s.params s.store m).map Event.shift).map (fun e => (s.t, e)) ++
        [(s.t, .txnEnd)] ++ [(s.t, .latchRise)] := by
    simp [passEvents]
  rw [hout, hend, State.sendBytes_eq, hsck]
  rfl

theorem State.passEnd_out (m : Byte) (s : State) :
    (s.passEnd m).out = s.out ++ (passEvents (frame s.params s.store m)).map (fun e => (s.t, e)) := by
  rw [State.passEnd_eq]

theorem State.passEnd_ho (m : Byte) (s : State) :
    (s.passEnd m).chain.ho = stageAfter (frameBitStream (frame s.params s.store m)) s.chain.sh := by
  rw [State.passEnd_eq]

theorem State.passEnd_busy (m : Byte) (s : State) : (s.passEnd m).busy = false := rfl

/-- What a whole pass leaves unchanged (41_render R85). -/
theorem State.passEnd_frame (m : Byte) (s : State) :
    s.passEnd m = { s with
      rs := (s.passEnd m).rs, out := (s.passEnd m).out, latch := true, sdo := (s.passEnd m).sdo, sck := false,
      txn := false, chain := (s.passEnd m).chain } := by
  have h := State.passEnd_eq m s
  generalize s.passEnd m = e at h
  rw [h]

end Sys2Proof.Machine
end

section
/-! A `TICK` with all its micro-steps, and what the chain shows after it (30_encoding R62, 42_serializer R113, R114). -/

namespace Sys2Proof.Machine

open Sys2Proof.Config Sys2Proof.Safety

/-! ## The tick -/

/-- The state of an idle machine after the part of a `TICK` line before the gate (40_scheduler R70). -/
def State.ticked (s : State) : State := s.dropLine.tickEntry

theorem State.ticked_eq {s : State} (hb : s.busy = false) (hf : s.fault = none) :
    s.ticked = { s with
      script := s.script.tail, t := s.t + 1, latch := false, cnt := s.cnt + 1#8,
      out := s.out ++ if s.latch then [(s.t + 1, .latchFall)] else [] } :=
  (State.tick0With_idle (s := s.dropLine) hb hf).2

/-- On an idle machine a `TICK` line runs what the new counter value decodes to, and the micro-steps of the pass that
this starts (30_encoding R62, 40_scheduler R70). -/
theorem step_tick {s : State} (h : NextIs s .tick) (hb : s.busy = false) :
    step s = andThen (exec (decodeCnt (s.cnt + 1#8)) s.ticked)
      fun u => if u.fault.isSome then .next u else u.finishPass := by
  rw [step_eq h]
  show andThen (s.dropLine.tick0With exec) _ = _
  rw [(State.tick0With_idle (s := s.dropLine) hb h.1).1]
  rfl

theorem step_tick_render {s : State} (h : NextIs s .tick) (hb : s.busy = false) (hp : popcount (s.cnt + 1#8) = 1) :
    step s = .next (s.ticked.passEnd (s.cnt + 1#8)) := by
  have hticked := State.ticked_eq hb h.1
  have hidle : s.ticked.busy = false := by rw [hticked]; exact hb
  have hfault : s.ticked.fault = none := by rw [hticked]; exact h.1
  obtain ⟨hn, -⟩ | ⟨-, hbusy, -⟩ | ⟨-, -, hrender⟩ := s.ticked.render_cases (s.cnt + 1#8)
  · exact absurd hp hn
  · rw [hidle] at hbusy
    cases hbusy
  · rw [step_tick h hb, exec_decodeCnt_render hp, hrender, ← State.finishPass_startPass]
    exact if_neg (by rw [State.startPass_fault, hfault]; exact Bool.false_ne_true)

theorem step_tick_idle {s : State} (h : NextIs s .tick) (hb : s.busy = false) (hp : popcount (s.cnt + 1#8) ≠ 1) :
    step s = .next s.ticked := by
  have hticked := State.ticked_eq hb h.1
  have hidle : s.ticked.busy = false := by rw [hticked]; exact hb
  have hfault : s.ticked.fault = none := by rw [hticked]; exact h.1
  rw [step_tick h hb, exec_decodeCnt_idle hp]
  refine (if_neg (by rw [hfault]; exact Bool.false_ne_true)).trans ?_
  exact runPass_idle hidle _

/-- What a rendering `TICK` leaves unchanged (30_encoding R62). -/
theorem ticked_passEnd_frame {s : State} (hb : s.busy = false) (hf : s.fault = none) (m : Byte) :
    s.ticked.passEnd m = { s with
      script := s.script.tail, t := s.t + 1, cnt := s.cnt + 1#8, rs := (s.ticked.passEnd m).rs,
      out := (s.ticked.passEnd m).out, latch := true, sdo := (s.ticked.passEnd m).sdo, sck := false, txn := false,
      chain := (s.ticked.passEnd m).chain } := by
  have h := State.passEnd_frame m s.ticked
  generalize s.ticked.passEnd m = e at h ⊢
  rwa [State.ticked_eq hb hf] at h

/-- Settles O20: the entry of the tick gives the latch event, and the pass the events of its frame. -/
theorem renderingTick : Obligations.RenderingTick := by
  intro s h hb hp
  refine ⟨_, step_tick_render h hb hp, ?_, State.passEnd_busy _ _, ticked_passEnd_frame hb h.1 _⟩
  rw [State.passEnd_out, State.ticked_eq hb h.1]

/-! ## The chain -/

/-- After a rendering `TICK` a whole chain holds the stream of the frame, the last bit nearest to the block
(42_serializer R112). -/
theorem ticked_passEnd_ho {s : State} (h : NextIs s .tick) (hb : s.busy = false) {m : Byte}
    (hlen : s.chain.sh.length = s.params.frameBits) :
    (s.ticked.passEnd m).chain.ho = (frameBitStream (frame s.params s.store m)).reverse := by
  rw [State.passEnd_ho, State.ticked_eq hb h.1]
  exact stageAfter_whole (hlen.trans (frame_stream_length ..).symm)

theorem stream_reverse_getElem? (p : Params) (store : Memory) (m : Byte) {q x : Nat} (h : q + x + 1 = p.frameBits) :
    (frameBitStream (frame p store m)).reverse[q]? = (frameBitStream (frame p store m))[x]? := by
  rw [List.getElem?_reverse (by rw [frame_stream_length]; omega), frame_stream_length]
  congr 1
  omega

/-- The output of a sector after a rendering `TICK` (42_serializer R113). -/
theorem ticked_passEnd_sector {s : State} (h : NextIs s .tick) (hb : s.busy = false) (m : Byte)
    (hlen : s.chain.sh.length = s.params.frameBits) {sec : Nat} (ch : Channel) (hsec : sec < s.params.numSectors) :
    (s.ticked.passEnd m).chain.ho[chainPosition s.params sec ch]? = some (sectorBit s.params s.store m sec ch) := by
  rw [ticked_passEnd_ho h hb hlen, stream_reverse_getElem? _ _ _ (chainPosition_add_streamIndex ch hsec),
    stream_getElem?_streamIndex _ _ _ hsec]

/-- Settles O29: the chain holds the stream of the frame, and so its sectors and its zeros. -/
theorem chainPlacesSectors : Obligations.ChainPlacesSectors := by
  intro s h hb hp hlen
  refine ⟨_, step_tick_render h hb hp, fun sec ch hsec => ticked_passEnd_sector h hb _ hlen ch hsec,
    fun q hq hpad => ?_⟩
  rw [ticked_passEnd_ho h hb hlen, stream_reverse_getElem? _ _ _ (x := s.params.frameBits - 1 - q) (by omega)]
  refine stream_getElem?_pad _ _ (by omega) fun sec ch hsec heq => hpad sec ch hsec ?_
  have := chainPosition_add_streamIndex ch hsec
  omega

/-! ## The planes -/

/-- A one-hot counter value is the mask of its own plane (40_scheduler R76). -/
theorem eq_twoPow_planeOf : ∀ x : Byte, popcount x = 1 → x = BitVec.twoPow 8 (planeOf x) := by
  decide +kernel

/-- A counter value that is not one-hot keeps the plane that was shown (40_scheduler R76). -/
theorem planeOf_succ_of_idle : ∀ x : Byte, popcount (x + 1#8) ≠ 1 → planeOf (x + 1#8) = planeOf x := by
  decide +kernel

/-- A one-hot mask selects the bit of its plane (41_render R88). -/
theorem extractBit_of_onehot {m : Byte} (h : popcount m = 1) (v : Byte) :
    extractBit v m = v.getLsbD (planeOf m) := by
  have hne : m ≠ 0x00#8 := by
    rintro rfl
    exact absurd h (by decide)
  have hm := eq_twoPow_planeOf m h
  rw [extractBit]
  conv_lhs => rw [hm, BitVec.and_twoPow, ← hm]
  cases v.getLsbD (planeOf m) with
  | false => rfl
  | true => exact bne_iff_ne.2 hne

/-- A rendering `TICK` puts the plane of the new counter value on the outputs of a whole chain (42_serializer R113,
R114). -/
theorem ticked_passEnd_showsPlane {s : State} (h : NextIs s .tick) (hb : s.busy = false)
    (hp : popcount (s.cnt + 1#8) = 1) (hlen : s.chain.sh.length = s.params.frameBits) :
    ShowsPlane (s.ticked.passEnd (s.cnt + 1#8)) := by
  intro sec ch hsec
  have hframe := ticked_passEnd_frame hb h.1 (s.cnt + 1#8)
  have hparams := congrArg State.params hframe
  have hstore := congrArg State.store hframe
  have hcnt := congrArg State.cnt hframe
  rw [hparams] at hsec ⊢
  rw [ticked_passEnd_sector h hb _ hlen ch hsec, hstore, hcnt, sectorBit, extractBit_of_onehot hp]

/-- An idle `TICK` keeps the plane on the outputs (40_scheduler R74, R76). -/
theorem ticked_showsPlane {s : State} (hb : s.busy = false) (hf : s.fault = none) (hp : popcount (s.cnt + 1#8) ≠ 1)
    (hshow : ShowsPlane s) : ShowsPlane s.ticked := by
  rw [State.ticked_eq hb hf]
  intro sec ch hsec
  exact (hshow sec ch hsec).trans (by rw [planeOf_succ_of_idle _ hp])

/-! ## Hold times and on-time -/

/-- The planes of the 256 counter values are, in some order, each plane as often as it is held (40_scheduler R76). -/
theorem planes_perm : ((List.range 256).map fun n => planeOf (BitVec.ofNat 8 n)).Perm
    ((List.range 8).flatMap fun k => List.replicate (holdTicks k) k) := by
  decide +kernel

/-- How many of the 256 counter values show a plane of a kind (40_scheduler R76). -/
theorem length_filter_planeOf (P : Nat → Bool) :
    ((List.range 256).filter fun n => P (planeOf (BitVec.ofNat 8 n))).length =
      ((List.range 8).map fun k => if P k then holdTicks k else 0).sum := by
  have hperm := planes_perm.countP_eq P
  rw [List.countP_map, List.countP_flatMap, List.countP_eq_length_filter] at hperm
  simpa only [Function.comp_def, List.countP_replicate] using hperm

/-- The hold times of the set bits of `v` add up to its on-time (42_serializer R114). -/
theorem sum_holdTicks_of_bits : ∀ v : Byte,
    ((List.range 8).map fun k => if v.getLsbD k then holdTicks k else 0).sum = onTime v := by
  decide +kernel

/-- The fraction of the on-time is within one tick of `v / 255` (42_serializer R114). -/
theorem onTime_bounds (v : Byte) :
    255 * onTime v ≤ 256 * v.toNat + 127 ∧ 256 * v.toNat ≤ 255 * onTime v + 127 := by
  have hlt : v.toNat < 256 := v.isLt
  have hmsb : v.getLsbD 7 = decide (128 ≤ v.toNat) := (v.msb_eq_getLsbD_last).symm.trans v.msb_eq_decide
  rw [onTime, hmsb]
  by_cases h : 128 ≤ v.toNat
  · rw [decide_eq_true h, Bool.toNat_true]
    omega
  · rw [decide_eq_false h, Bool.toNat_false]
    omega

/-- Settles O60: a rendering tick shows the new plane and an idle one keeps plane and chain, and the counts are those of
the planes of the 256 counter values. -/
theorem holdsAndOnTime : Obligations.HoldsAndOnTime := by
  refine ⟨fun s h hb hlen => ?_, fun k hk => ?_, by decide, fun v => ⟨?_, onTime_bounds v⟩⟩
  · by_cases hp : popcount (s.cnt + 1#8) = 1
    · refine ⟨_, step_tick_render h hb hp, fun _ => ⟨ticked_passEnd_showsPlane h hb hp hlen, ?_⟩,
        fun hn => absurd hp hn⟩
      rw [(decodeCnt_render _ hp).2, ticked_passEnd_frame hb h.1]
      refine (eq_twoPow_planeOf _ hp).trans (BitVec.eq_of_toNat_eq ?_)
      rw [BitVec.toNat_twoPow, BitVec.toNat_ofNat]
    · refine ⟨_, step_tick_idle h hb hp, fun hn => absurd hn hp, fun _ => ⟨?_, ?_, ticked_showsPlane hb h.1 hp⟩⟩
      · rw [State.ticked_eq hb h.1]
        exact planeOf_succ_of_idle _ hp
      · rw [State.ticked_eq hb h.1]
  · rw [length_filter_planeOf (· == k)]
    revert k
    decide
  · rw [length_filter_planeOf v.getLsbD, sum_holdTicks_of_bits]

end Sys2Proof.Machine
end

section
/-! The counter along the ticks (40_scheduler R70, R71, R72, R75): when it fires, who writes it, and what it is after
any number of ticks. -/

namespace Sys2Proof.Machine

open Sys2Proof.Safety

/-! ## `POW2` and `IDLE` -/

theorem fire_iff (x : Byte) : fire x = true ↔ popcount x = 1 := beq_iff_eq

theorem popcount_eq_one_iff_mem : ∀ x : Byte,
    popcount x = 1 ↔ x ∈ [0x01#8, 0x02#8, 0x04#8, 0x08#8, 0x10#8, 0x20#8, 0x40#8, 0x80#8] := by
  decide +kernel

theorem popcount_eq_one_iff_trick : ∀ x : Byte,
    popcount x = 1 ↔ x ≠ 0x00#8 ∧ x &&& (x - 1#8) = 0x00#8 := by
  decide +kernel

/-- Settles O5: `fire` is the popcount test, and both other forms are it on each of the 256 values. -/
theorem fireOnPowersOfTwo : Obligations.FireOnPowersOfTwo := fun x =>
  ⟨fire_iff x, (fire_iff x).trans (popcount_eq_one_iff_mem x), (fire_iff x).trans (popcount_eq_one_iff_trick x)⟩

theorem decodeCnt_eq_idle_iff (x : Byte) : decodeCnt x = .idle x ↔ popcount x ≠ 1 := by
  refine ⟨fun h hp => ?_, decodeCnt_idle⟩
  have hrender := (decodeCnt_render x hp).1
  rw [h] at hrender
  cases hrender

/-- Settles O12: the arm of `IDLE` answers its own state, and the encodings are counted by evaluation. -/
theorem idleDoesNothing : Obligations.IdleDoesNothing :=
  ⟨fun _ _ => rfl, decodeCnt_eq_idle_iff, by decide +kernel⟩

/-! ## A tick on an idle machine -/

/-- Settles O7: the tick's entry on an idle machine is the state that `exec` is given. -/
theorem tickRunsDecodedCounter : Obligations.TickRunsDecodedCounter := by
  intro s h hb
  obtain ⟨hrun, hentry⟩ := State.tick0With_idle (s := s.dropLine) hb h.1
  rw [hentry] at hrun
  rw [step_eq h]
  exact hrun

/-- Settles O11: `TICK` has no micro-step to run after its entry, and `TICK0` runs `IDLE`. -/
theorem idleTick : Obligations.IdleTick := by
  intro s l h hl hb hp
  rcases hl with rfl | rfl
  · rw [step_tick_idle h hb hp, State.ticked_eq hb h.1]
  · rw [tickRunsDecodedCounter s h hb, exec_decodeCnt_idle hp]

theorem popcount_renderMask {i : Instr} (h : isRender i = true) : popcount (renderMask i) = 1 := by
  cases i with
  | renderP0 | renderP1 | renderP2 | renderP3 | renderP4 | renderP5 | renderP6 | renderP7 => decide
  | idle | setColors | unknown | resync => cases h

/-- Settles O18: the masks of the eight forms are one-hot, so that `RENDER(m)` on an idle machine starts a pass. -/
theorem renderStartsPass : Obligations.RenderStartsPass := by
  intro i s hi hb
  rw [exec_render hi]
  obtain ⟨hn, -⟩ | ⟨-, hbusy, -⟩ | ⟨-, -, hstart⟩ := s.render_cases (renderMask i)
  · exact absurd (popcount_renderMask hi) hn
  · rw [hb] at hbusy
    cases hbusy
  · exact hstart

/-! ## A tick while a pass is in progress -/

/-- A tick while a pass is in progress counts itself and records the overrun (40_scheduler R70). -/
theorem State.tick0With_busy {s : State} (hb : s.busy = true) (hf : s.fault = none) :
    s.tick0With exec = .next { s with t := s.t + 1, fault := some (.renderOverrun s.cnt s.rs.mask) } := by
  obtain ⟨-, he⟩ | ⟨hidle, -⟩ := s.tickEntry_cases
  · rw [hf] at he
    rw [State.tick0With, he]
    rfl
  · rw [hb] at hidle
    cases hidle

/-- Settles O13: the tick stops at the overrun, and a `TICK` line runs no micro-step after it. -/
theorem tickDuringPassOverruns : Obligations.TickDuringPassOverruns := by
  intro s l h hl hb
  have htick := State.tick0With_busy (s := s.dropLine) hb h.1
  rw [step_eq h]
  rcases hl with rfl | rfl
  · rw [State.performWith, State.tickWith, htick]
    rfl
  · exact htick

/-! ## Every step -/

/-- A periodic line is a micro-step, or a tick and then micro-steps, none for `TICK0` (30_encoding R62). -/
theorem State.performWith_periodic_cases {l : Line} (hl : periodicLine l = true) {s s' : State}
    (h : s.performWith exec l = .next s') :
    (l = .rstep ∧ s.microStep = .next s') ∨
      ((l = .tick ∨ l = .tick0) ∧ ∃ u n, s.tick0With exec = .next u ∧ runPass n u = .next s') := by
  cases l with
  | rstep => exact .inl ⟨rfl, h⟩
  | tick0 => exact .inr ⟨.inr rfl, s', 0, h, rfl⟩
  | tick =>
    obtain ⟨u, hu, rfl | hpass⟩ := State.tickWith_next h
    · exact .inr ⟨.inl rfl, s', 0, hu, rfl⟩
    · exact .inr ⟨.inl rfl, u, _, hu, hpass⟩
  | reset | wr | setColors | rx | elapse | poll => cases hl

theorem not_tick_of_polledLine {l : Line} (h : polledLine l = true) : ¬ (l = .tick ∨ l = .tick0) := by
  rintro (rfl | rfl) <;> cases h

/-- A tick increments the counter where no pass is in progress (40_scheduler R70, R71). -/
theorem State.tick0With_cnt {s s' : State} (h : s.tick0With exec = .next s') :
    s'.cnt = if s.busy = false then s.cnt + 1#8 else s.cnt := by
  have hentry : s.tickEntry.cnt = if s.busy = false then s.cnt + 1#8 else s.cnt := by
    obtain ⟨hb, he⟩ | ⟨hb, he⟩ := s.tickEntry_cases <;> rw [he, hb] <;> rfl
  obtain rfl | ⟨-, -, rfl⟩ := State.tick0With_cases h
  · exact hentry
  · exact hentry

theorem State.microStep_passFrame {s s' : State} (h : s.microStep = .next s') : PassFrame s s' := by
  obtain ⟨-, -, rfl⟩ := State.microStep_next h
  exact State.absorb_passFrame _ s

/-- Settles O10: `RESET` loads the counter, the polled lines and the micro-steps keep it, and a tick increments it on an
idle machine. -/
theorem counterWrites : Obligations.CounterWrites := by
  intro s s' h
  obtain ⟨hl, rfl⟩ | ⟨hl, h⟩ | ⟨hl, h⟩ := step_next_cases h
  · rw [if_pos hl]
    rfl
  · rw [if_neg (ne_reset_of_polledLine hl), if_neg fun ht => not_tick_of_polledLine hl ht.1,
      s.dropLine_polledFrame.trans (State.performWith_polledFrame hl h)]
  · rw [if_neg (ne_reset_of_periodicLine hl)]
    obtain ⟨hline, h⟩ | ⟨hline, u, n, htick, hpass⟩ := State.performWith_periodic_cases hl h
    · rw [if_neg (by simp [hline]), (State.microStep_passFrame h).cnt, State.dropLine_cnt]
    · have hcnt : s'.cnt = if s.busy = false then s.cnt + 1#8 else s.cnt :=
        (runPass_passFrame hpass).cnt.trans (State.tick0With_cnt (s := s.dropLine) htick)
      rw [hcnt]
      by_cases hb : s.busy = false
      · rw [if_pos hb, if_pos ⟨hline, hb⟩, BitVec.toNat_add]
        rfl
      · rw [if_neg hb, if_neg fun ht => hb ht.2]

/-! ## The schedule -/

/-- A step from a recorded fault that goes on is a `RESET` (60_exceptions R143). -/
theorem fault_none_of_step_next {s s' : State} (h : step s = .next s') (hl : s.nextLine ≠ .reset) :
    s.fault = none := by
  obtain ⟨hf, -⟩ | ⟨-, hreset, -⟩ := step_next h
  · exact hf
  · exact absurd hreset hl

theorem scheduleInv_of_passFrame {s s' : State} (hframe : PassFrame s s') (h : ScheduleInv s) : ScheduleInv s' := by
  unfold ScheduleInv
  rwa [hframe.fault, hframe.cnt, hframe.params, hframe.t]

/-- A tick counts itself and increments the counter, or records a fault (40_scheduler R70, R75). -/
theorem tick0_scheduleInv {s s' : State} (h : ScheduleInv s) (hs : s.tick0With exec = .next s') :
    ScheduleInv s' := by
  have hentry : ScheduleInv s.tickEntry := by
    obtain ⟨-, he⟩ | ⟨-, he⟩ := s.tickEntry_cases <;> rw [he] <;> intro hf
    · cases hf
    · show s.cnt + 1#8 = s.params.cntReset + BitVec.ofNat 8 (s.t + 1)
      rw [h hf, BitVec.ofNat_add, BitVec.add_assoc]
  obtain rfl | ⟨-, -, rfl⟩ := State.tick0With_cases hs
  · exact hentry
  · exact scheduleInv_of_passFrame (State.startPass_passFrame _ _) hentry

/-- Settles O16: `RESET` starts the count again, the polled lines move neither the counter nor the tick number, and the
periodic ones keep the schedule tick by tick and micro-step by micro-step. -/
theorem scheduleKept : Obligations.ScheduleKept := by
  intro s s' h hs
  have hdrop : ScheduleInv s.dropLine := h
  obtain ⟨-, rfl⟩ | ⟨hl, hp⟩ | ⟨hl, hp⟩ := step_next_cases hs
  · exact fun _ => (BitVec.add_zero _).symm
  · have hf := fault_none_of_step_next hs (ne_reset_of_polledLine hl)
    rw [s.dropLine_polledFrame.trans (State.performWith_polledFrame hl hp)]
    exact fun _ => h hf
  · exact State.performWith_periodic_induction (P := ScheduleInv) hdrop (fun _ => tick0_scheduleInv hdrop)
      (fun _ _ hu hv => scheduleInv_of_passFrame (State.microStep_passFrame hv) hu) hl hp

end Sys2Proof.Machine
end

section
/-! Who starts a pass (40_scheduler R73, R78). All that a step is made of starts none, but for the start of a pass at
the gate. -/

namespace Sys2Proof.Machine

open Sys2Proof.Safety

/-- From `s` to `s'` no pass was started: an idle machine is still idle, the mask is the same, and the events since then
open no bracket (40_scheduler R73). -/
structure StartsNoPass (s s' : State) : Prop where
  busy : s'.busy = true → s.busy = true
  mask : s'.rs.mask = s.rs.mask
  out  : ∃ l, s'.out = s.out ++ l ∧ ∀ n, (n, Event.txnBegin) ∉ l

theorem StartsNoPass.refl (s : State) : StartsNoPass s s := ⟨id, rfl, [], (List.append_nil _).symm, by simp⟩

theorem StartsNoPass.trans {a b c : State} (h : StartsNoPass a b) (h' : StartsNoPass b c) : StartsNoPass a c := by
  obtain ⟨l, hl, hno⟩ := h.out
  obtain ⟨l', hl', hno'⟩ := h'.out
  refine ⟨h.busy ∘ h'.busy, h'.mask.trans h.mask, l ++ l', by rw [hl', hl, List.append_assoc], fun n hn => ?_⟩
  exact (List.mem_append.1 hn).elim (hno n) (hno' n)

/-- What leaves the sequencer alone starts no pass. -/
theorem startsNoPass_of_rs_eq {s s' : State} {l : List (Nat × Event)} (hrs : s'.rs = s.rs)
    (hout : s'.out = s.out ++ l) (hno : ∀ n, (n, Event.txnBegin) ∉ l) : StartsNoPass s s' :=
  ⟨fun hb => by rwa [State.busy, hrs] at hb, congrArg Sequencer.mask hrs, l, hout, hno⟩

/-- Where no pass was started, neither sign of a start is there. -/
theorem StartsNoPass.not_started {s s' : State} (h : StartsNoPass s s') :
    ¬ ((s.busy = false ∧ s'.busy = true) ∨
      ∃ more n, s'.out = s.out ++ more ∧ (n, Event.txnBegin) ∈ more) := by
  rintro (⟨hidle, hbusy⟩ | ⟨more, n, hmore, hn⟩)
  · rw [h.busy hbusy] at hidle
    cases hidle
  · obtain ⟨l, hl, hno⟩ := h.out
    exact hno n (List.append_cancel_left (hl.symm.trans hmore) ▸ hn)

/-! ## The parts of a micro-step -/

/-- A new place or a new byte of the sequencer starts no pass. -/
theorem State.setRs_startsNoPass {rs : Sequencer} {s : State} (hphase : rs.phase = s.rs.phase)
    (hmask : rs.mask = s.rs.mask) : StartsNoPass s (s.setRs rs) :=
  ⟨fun hb => by rwa [State.busy, State.setRs_rs, hphase] at hb, hmask, [], (List.append_nil _).symm, by simp⟩

theorem State.shiftByte_rs (b : Byte) (s : State) : (s.shiftByte b).rs = s.rs := by
  rw [(State.shiftByte_frame b s).1]

theorem State.shiftByte_startsNoPass (b : Byte) (s : State) : StartsNoPass s (s.shiftByte b) :=
  startsNoPass_of_rs_eq (State.shiftByte_rs b s) (congrArg State.out (State.shiftByte_frame b s).1) (by simp)

theorem State.flush_startsNoPass (s : State) : StartsNoPass s s.flush := by
  unfold State.flush
  split_ifs
  · exact (State.shiftByte_startsNoPass _ s).trans
      (State.setRs_startsNoPass (by rw [State.shiftByte_rs]) (by rw [State.shiftByte_rs]))
  · exact StartsNoPass.refl s

theorem State.finish_startsNoPass (s : State) : StartsNoPass s s.finish :=
  ⟨fun hb => (by cases hb), rfl, [(s.t, .txnEnd), (s.t, .latchRise)], by simp [State.finish], by simp⟩

theorem State.advance_startsNoPass (s : State) : StartsNoPass s s.advance := by
  unfold State.advance
  split_ifs
  · exact State.setRs_startsNoPass rfl rfl
  · split
    · exact State.setRs_startsNoPass rfl rfl
    · exact State.finish_startsNoPass s

theorem State.microStep_startsNoPass {s s' : State} (h : s.microStep = .next s') : StartsNoPass s s' := by
  obtain ⟨-, -, rfl⟩ := State.microStep_next h
  have hpack : StartsNoPass s (s.pack (extractBit (s.store.read s.readAddr) s.rs.mask)) :=
    State.setRs_startsNoPass rfl rfl
  exact (hpack.trans (State.flush_startsNoPass _)).trans (State.advance_startsNoPass _)

theorem runPass_startsNoPass {n : Nat} {s s' : State} (h : runPass n s = .next s') : StartsNoPass s s' :=
  runPass_induction (P := StartsNoPass s) (fun _ _ hu hv => hu.trans (State.microStep_startsNoPass hv)) n
    (StartsNoPass.refl s) h

/-! ## The events -/

theorem State.tickEntry_startsNoPass (s : State) : StartsNoPass s s.tickEntry := by
  obtain ⟨-, he⟩ | ⟨-, he⟩ := s.tickEntry_cases <;> rw [he]
  · exact startsNoPass_of_rs_eq rfl (List.append_nil _).symm (by simp)
  · exact startsNoPass_of_rs_eq rfl rfl (by cases s.latch <;> simp)

theorem PolledFrame.startsNoPass {s s' : State} (h : PolledFrame s s') : StartsNoPass s s' := by
  rw [h]
  exact startsNoPass_of_rs_eq rfl (List.append_nil _).symm (by simp)

/-- The trace after `RESET` is empty and the machine idle (10_state R24). -/
theorem restart_not_started (s : State) :
    ¬ ((s.busy = false ∧ s.restart.busy = true) ∨
      ∃ more n, s.restart.out = s.out ++ more ∧ (n, Event.txnBegin) ∈ more) := by
  rintro (⟨-, hbusy⟩ | ⟨more, n, hmore, hn⟩)
  · cases hbusy
  · obtain ⟨-, rfl⟩ := List.append_eq_nil_iff.1 hmore.symm
    cases hn

/-- Settles O17: the start of a pass at the gate of a tick is the one part of a step that starts a pass, and the
micro-steps that follow it in a `TICK` line keep the mask and the counter. -/
theorem onlyTicksStartPasses : Obligations.OnlyTicksStartPasses := by
  intro s s' h hstart
  obtain ⟨-, rfl⟩ | ⟨hl, h⟩ | ⟨hl, h⟩ := step_next_cases h
  · exact absurd hstart (restart_not_started s.dropLine)
  · exact absurd hstart
      (s.dropLine_polledFrame.trans (State.performWith_polledFrame hl h)).startsNoPass.not_started
  obtain ⟨-, h⟩ | ⟨hline, u, n, htick, hpass⟩ := State.performWith_periodic_cases hl h
  · exact absurd hstart (State.microStep_startsNoPass h).not_started
  obtain rfl | ⟨hb, hp, rfl⟩ := State.tick0With_cases htick
  · exact absurd hstart (s.dropLine.tickEntry_startsNoPass.trans (runPass_startsNoPass hpass)).not_started
  · have hcnt : s'.cnt = s.dropLine.tickEntry.cnt := (runPass_passFrame hpass).cnt
    have hmask : s'.rs.mask = s.dropLine.tickEntry.cnt := (runPass_startsNoPass hpass).mask
    have hnew : s'.cnt = s.cnt + 1#8 := hcnt.trans ((State.tick0With_cnt htick).trans (if_pos hb))
    exact ⟨hline, hb, hmask.trans hcnt.symm, hnew, hcnt ▸ hp⟩

end Sys2Proof.Machine
end

section
/-! The micro-step as a whole (41_render R88 to R91): the packed bit, the byte that is handed over where a flush is due,
and what follows by the order of channels and sectors. -/

namespace Sys2Proof.Machine

open Sys2Proof.Config Sys2Proof.Safety

/-! ## The order of channels and sectors -/

theorem nextPair_of_pos {p : Params} {ch : Channel} {sec : Nat} (h : 0 < sec) :
    nextPair p ch sec = some (ch, sec - 1) := by
  obtain ⟨n, rfl⟩ := Nat.exists_eq_add_one_of_ne_zero h.ne'
  cases ch <;> rfl

theorem nextPair_zero (p : Params) (ch : Channel) :
    nextPair p ch 0 = (nextChannel ch).map fun c => (c, p.lastSector) := by
  cases ch <;> rfl

/-- Where a pair follows, the micro-step moves on to it (41_render R91). -/
theorem State.advance_of_nextPair_some {s : State} {ch : Channel} {sec : Nat} (h : s.rs.sec ≤ s.params.lastSector)
    (hnext : nextPair s.params s.rs.ch s.rs.sec = some (ch, sec)) :
    s.advance = s.setRs { s.rs with ch := ch, sec := sec } := by
  obtain hz | hpos := s.rs.sec.eq_zero_or_pos
  · rw [hz, nextPair_zero, Option.map_eq_some_iff] at hnext
    obtain ⟨c, hc, hpair⟩ := hnext
    injection hpair with hch hsec
    rw [State.advance_of_sec_zero_next hz hc, hch, hsec]
  · rw [nextPair_of_pos hpos] at hnext
    injection hnext with hpair
    injection hpair with hch hsec
    rw [State.advance_of_sec_pos h hpos, ← hch, ← hsec]

/-- Where no pair follows, the micro-step ends the pass (41_render R91). -/
theorem State.advance_of_nextPair_none {s : State} (hnext : nextPair s.params s.rs.ch s.rs.sec = none) :
    s.advance = s.finish := by
  obtain hz | hpos := s.rs.sec.eq_zero_or_pos
  · rw [hz, nextPair_zero, Option.map_eq_none_iff] at hnext
    exact State.advance_of_sec_zero_last hz hnext
  · rw [nextPair_of_pos hpos] at hnext
    cases hnext

theorem sec_eq_zero_of_nextPair_none {p : Params} {ch : Channel} {sec : Nat} (h : nextPair p ch sec = none) :
    sec = 0 := by
  by_contra hne
  rw [nextPair_of_pos (Nat.pos_of_ne_zero hne)] at h
  cases h

/-! ## The micro-step -/

theorem nacc_succ_eq_eight_iff : ∀ nacc : BitVec 4, nacc + 1#4 = 8#4 ↔ nacc = 7#4 := by decide

/-- `FLUSH` where it is not due (41_render R90). -/
theorem State.setRs_flush_not_due {s : State} {r : Sequencer} (h : r.sec ≤ s.params.lastSector)
    (hnacc : r.nacc ≠ 8#4) (hpos : r.sec ≠ 0) : (s.setRs r).flush = s.setRs r :=
  State.flush_of_not_due ((State.flushDue_iff (s := s.setRs r) h).not.2 (not_or.2 ⟨hnacc, hpos⟩))

/-- Settles O25: the micro-step asks for a pass in progress first. -/
theorem microStepNeedsBusy : Obligations.MicroStepNeedsBusy := by
  intro s h hb
  rw [step_eq h]
  exact if_neg (Bool.eq_false_iff.1 hb)

/-- A micro-step of a pass in progress packs the bit of its sector and channel (41_render R88, R89, R91). -/
theorem step_rstep {s : State} (h : NextIs s .rstep) (hb : s.busy = true) (hsec : s.rs.sec < s.params.numSectors) :
    step s = .next (s.dropLine.setRs { s.rs with acc := packedByte s, nacc := s.rs.nacc + 1#4 }).flush.advance := by
  have hle : s.dropLine.rs.sec ≤ s.dropLine.params.lastSector := Nat.le_of_lt_succ hsec
  have haddr := State.readAddr_eq hle
  have hmicro := State.microStep_eq (s := s.dropLine) hb (haddr ▸ channelAddr_lt _ hle)
  rw [haddr] at hmicro
  rw [step_eq h]
  exact hmicro

/-- A micro-step that flushes hands the packed byte over before it moves on (41_render R90). -/
theorem step_rstep_flush {s : State} (h : NextIs s .rstep) (hb : s.busy = true)
    (hsec : s.rs.sec < s.params.numSectors) (hdue : s.rs.nacc = 7#4 ∨ s.rs.sec = 0) :
    step s = .next ((s.dropLine.shiftByte (packedByte s)).setRs { s.rs with acc := 0x00#8, nacc := 0#4 }).advance := by
  rw [step_rstep h hb hsec, State.setRs_flush_due]
  · exact Nat.le_of_lt_succ hsec
  · exact hdue.imp_left (nacc_succ_eq_eight_iff _).2

/-- Settles O22: no flush is due, and the sector is not the last of its channel. -/
theorem microStepPacks : Obligations.MicroStepPacks := by
  intro s h hb hsec hnacc hpos
  have hle : s.rs.sec ≤ s.params.lastSector := Nat.le_of_lt_succ hsec
  rw [step_rstep h hb hsec, State.setRs_flush_not_due, State.advance_of_sec_pos]
  · rfl
  · exact hle
  · exact Nat.pos_of_ne_zero hpos
  · exact hle
  · exact mt (nacc_succ_eq_eight_iff _).1 hnacc
  · exact hpos

/-- Settles O23: the packed byte is sent, and the next pair follows. -/
theorem microStepFlushes : Obligations.MicroStepFlushes := by
  intro s ch sec h hb hsec hdue hnext
  rw [step_rstep_flush h hb hsec hdue, State.shiftByte_eq, State.advance_of_nextPair_some]
  · rfl
  · exact Nat.le_of_lt_succ hsec
  · exact hnext

/-- Settles O24: no pair follows at sector 0 only, where a flush is due, and the pass ends after it. -/
theorem lastMicroStepCommits : Obligations.LastMicroStepCommits := by
  intro s h hb hsec hnext
  have hout : s.out ++ [(s.t, .shift (packedByte s)), (s.t, .txnEnd), (s.t, .latchRise)] =
      s.out ++ [(s.t, .shift (packedByte s))] ++ [(s.t, .txnEnd)] ++ [(s.t, .latchRise)] := by simp
  rw [step_rstep_flush h hb hsec (.inr (sec_eq_zero_of_nextPair_none hnext)), State.shiftByte_eq,
    State.advance_of_nextPair_none, hout]
  · rfl
  · exact hnext

end Sys2Proof.Machine
end

section
/-! `PACK` bit by bit (41_render R89). -/

namespace Sys2Proof.Machine

open Sys2Proof.Config

/-- With `LEFT` the new bit enters at its own position (41_render R89). -/
theorem getLsbD_packBit_left (b : Bool) (acc : Byte) (n : Nat) {j : Nat} (hj : j ≤ 7) :
    (packBit .left b acc n).getLsbD j = (acc.getLsbD j || (7 - n == j && b)) := by
  rw [packBit, BitVec.getLsbD_or, getLsbD_bit_shiftLeft, decide_eq_true (Nat.lt_succ_of_le hj), Bool.true_and]

/-- With `RIGHT` the bits move up by one, and the new bit enters below them (41_render R89). -/
theorem getLsbD_packBit_right (b : Bool) (acc : Byte) (n : Nat) {j : Nat} (hj : j ≤ 7) :
    (packBit .right b acc n).getLsbD j = if j = 0 then b else acc.getLsbD (j - 1) := by
  rw [packBit, BitVec.getLsbD_or, BitVec.getLsbD_shiftLeft, BitVec.getLsbD_ofNat, Nat.testBit_bool_toNat]
  cases j with
  | zero => simp
  | succ j => simp [Nat.lt_succ_of_le hj]

/-- Packing bits one after the other assembles a frame byte, for both alignments (41_render R89, 30_encoding R55). -/
theorem foldl_packBit_range (align : PartialAlign) (bit : Nat → Bool) {n : Nat} (hn : n ≤ 8) :
    (List.range n).foldl (fun acc i => packBit align (bit i) acc i) 0x00#8 = assembleByte align n bit := by
  induction n with
  | zero => rfl
  | succ n ih =>
    rw [List.range_succ, List.foldl_append, ih (Nat.le_of_succ_le hn)]
    exact packBit_assembleByte align bit (Nat.le_of_succ_le_succ hn)

theorem zipIdx_eq_map_range (bits : List Bool) :
    bits.zipIdx = (List.range bits.length).map fun i => (bits.getD i false, i) := by
  refine List.ext_getElem (by simp) fun i hi _ => ?_
  rw [List.length_zipIdx] at hi
  simp [hi]

theorem foldl_packBit_zipIdx (align : PartialAlign) {bits : List Bool} (h : bits.length ≤ 8) :
    bits.zipIdx.foldl (fun acc b => packBit align b.1 acc b.2) 0x00#8 =
      assembleByte align bits.length fun i => bits.getD i false := by
  rw [zipIdx_eq_map_range, List.foldl_map]
  exact foldl_packBit_range align _ h

/-- Settles O26: the new bit and the old ones for each alignment, whose positions are the same in a whole byte. -/
theorem packPlacesBit : Obligations.PackPlacesBit := by
  refine ⟨fun b acc n j _ hj => ⟨fun hfree => ?_, getLsbD_packBit_right b acc n hj⟩, fun bits h8 => ?_⟩
  · rw [getLsbD_packBit_left b acc n hj]
    by_cases hpos : j = 7 - n
    · rw [if_pos hpos, hpos, hfree, beq_self_eq_true, Bool.true_and, Bool.false_or]
    · rw [if_neg hpos, beq_false_of_ne (Ne.symm hpos), Bool.false_and, Bool.or_false]
  · rw [foldl_packBit_zipIdx .left h8.le, foldl_packBit_zipIdx .right h8.le, h8]
    rfl

end Sys2Proof.Machine
end

section
/-! A pass from its instruction to its end (41_render R85, R92, R94): what it emits, and what it depends on. -/

namespace Sys2Proof.Machine

open Sys2Proof.Config Sys2Proof.Safety

/-- `RENDER.Pk` on an idle machine and the micro-steps of its pass (41_render R85, R92). -/
theorem exec_render_finishPass {i : Instr} {s : State} (hi : isRender i = true) (hb : s.busy = false) :
    andThen (exec i s) State.finishPass = .next (s.passEnd (renderMask i)) :=
  (congrArg (andThen · State.finishPass) (renderStartsPass i s hi hb)).trans (State.finishPass_startPass _ s)

/-- Settles O19: the pass that the instruction starts, in closed form. -/
theorem renderWholePass : Obligations.RenderWholePass := fun _ s hi hb =>
  ⟨_, exec_render_finishPass hi hb, State.passEnd_out _ s, rfl, rfl, State.passEnd_busy _ s, State.passEnd_frame _ s⟩

/-! ## What a pass depends on -/

/-- The frame reads the channel bytes only (30_encoding R55, 10_state R12). -/
theorem frame_congr {p : Params} {store store' : Memory} (m : Byte)
    (h : ∀ sec ch, sec < p.numSectors → store'.read (channelAddr p sec ch) = store.read (channelAddr p sec ch)) :
    frame p store' m = frame p store m := by
  have hbit (ch : Channel) (j i : Nat) : sectorBit p store' m (p.numSectors - 1 - 8 * j - i) ch =
      sectorBit p store m (p.numSectors - 1 - 8 * j - i) ch := by
    rw [sectorBit, sectorBit, h _ ch (by simp only [Params.numSectors]; omega)]
  have hbyte : frameByte p store' m = frameByte p store m := by
    funext f
    simp only [frameByte, channelByte, hbit]
  rw [frame, frame, hbyte]

/-- A `SHIFT` does not read the store (42_serializer R106). -/
theorem State.shiftByte_withStore (b : Byte) (store : Memory) (s : State) :
    { s with store := store }.shiftByte b = { s.shiftByte b with store := store } := by
  rw [State.shiftByte_eq, State.shiftByte_eq]

theorem State.sendBytes_withStore (bytes : List Byte) (store : Memory) : ∀ s : State,
    { s with store := store }.sendBytes bytes = { s.sendBytes bytes with store := store } := by
  induction bytes with
  | nil => exact fun _ => rfl
  | cons b bytes ih =>
    intro s
    rw [State.sendBytes_cons, State.sendBytes_cons, State.shiftByte_withStore, ih]

/-- A pass starts, sends the bytes of its frame and finishes (41_render R92). -/
theorem State.passEnd_eq_finish (m : Byte) (s : State) :
    s.passEnd m =
      (((s.startPass m).sendBytes (frame s.params s.store m)).setRs (Sequencer.channelDone m .red)).finish := by
  rw [← List.take_of_length_le (frame_length s.params s.store m).le]
  rfl

/-- A pass over a store with the same channel bytes, after any other sequencer, ends alike (41_render R94). -/
theorem State.passEnd_withStore_rs {s : State} {store : Memory} (rs : Sequencer) (m : Byte)
    (h : ∀ sec ch, sec < s.params.numSectors →
      store.read (channelAddr s.params sec ch) = s.store.read (channelAddr s.params sec ch)) :
    { s with store := store, rs := rs }.passEnd m = { s.passEnd m with store := store } := by
  have hstart : { s with store := store, rs := rs }.startPass m = { s.startPass m with store := store } := rfl
  rw [State.passEnd_eq_finish, State.passEnd_eq_finish, hstart, frame_congr m h, State.sendBytes_withStore]
  rfl

/-- Settles O30: a pass starts with its own sequencer, and its frame is that of the channel bytes. -/
theorem passIgnoresPaddingAndHistory : Obligations.PassIgnoresPaddingAndHistory := by
  intro i s store rs hi hb hidle hread
  have hidle' : { s with store := store, rs := rs }.busy = false := by rw [State.busy, hidle]; rfl
  refine ⟨_, exec_render_finishPass hi hb, ?_⟩
  rw [exec_render_finishPass hi hidle', State.passEnd_withStore_rs rs _ hread]

end Sys2Proof.Machine
end

section
/-! `SHIFT` on its own. The closed form of a pass already says what one byte does to the chain, with the stage written
by `stageAfter`; here it is stated with the stage of the reference model. -/

namespace Sys2Proof.Machine

open Sys2Proof.Config Sys2Proof.Safety

/-- One byte on the reference chain is its eight bits shifted in, bit 7 first (42_serializer R107, R112). -/
theorem shiftedStage_eq_stageAfter (b : Byte) (sh : List Bool) :
    shiftedStage b sh = stageAfter (bitsMsbFirst b) sh := rfl

/-- Settles O31: the closed form of `SHIFT`, whose stage is that of the reference chain. -/
theorem shiftSendsEightBits : Obligations.ShiftSendsEightBits := by
  intro b s
  rw [shiftedStage_eq_stageAfter]
  exact State.shiftByte_eq b s

end Sys2Proof.Machine
end

section
/-! The data read of a `SetColors` frame (43_store_write R121, R122, R123), and the three operations of the frame decode
in closed form (R127). -/

namespace Sys2Proof.Machine

open Sys2Proof.Safety

/-- The end of a frame moves the handler only (43_store_write R127). -/
theorem State.endFrame_eq (st : Status) (s : State) :
    s.endFrame st = { s with
      handler := { s.handler with phase := .idle, rx := [], tx := s.handler.tx ++ [statusByte st] } } := rfl

/-- Settles O50: the arm of `UNKNOWN` is the end of a frame with its status. -/
theorem unknownSendsE1 : Obligations.UnknownSendsE1 := fun _ s =>
  congrArg Host.Outcome.next (s.endFrame_eq .unknownCmd)

theorem State.drainFreely_rx (s : State) :
    s.drainFreely.handler.rx = s.handler.rx ∨ s.drainFreely.handler.rx = [] := by
  rw [State.drainFreely_handler]
  dsimp only
  split_ifs
  · exact .inr rfl
  · exact .inl rfl

/-- Settles O51: the queue is what the free drain leaves of it. -/
theorem resyncIsSilent : Obligations.ResyncIsSilent := fun _ s => ⟨_, s.drainFreely_rx, rfl⟩

/-! ## The data read -/

/-- A data read whose bytes stay inside the store leaves them at consecutive addresses, and ends with SUCCESS or waits
for the rest (43_store_write R121, R127 steps 5, 6). -/
theorem State.takeData_inside {len : Byte} {k : Nat} {data : List Byte} {s : State} (hwf : s.store.wf = true)
    (hf : s.fault = none) (hlen : k + data.length ≤ s.params.storeBytes) :
    ∃ m, s.takeData len k data = { s with
        store := m,
        handler :=
          if len.toNat ≤ k + data.length then
            { s.handler with phase := .idle, rx := [], tx := s.handler.tx ++ [0xFF#8] }
          else { s.handler with phase := .data len (k + data.length) } } ∧
      ∀ a, m.read a = if k ≤ a ∧ a < k + data.length then data.getD (a - k) 0x00#8 else s.store.read a := by
  obtain ⟨m, hm, -, hread⟩ := burst_inside data k (s.setHandlerPhase (.data len k)) hwf hf hlen
  refine ⟨m, ?_, hread⟩
  unfold State.takeData
  rw [hm]
  dsimp only
  rw [State.setHandlerPhase_fault, hf, if_neg (by simp)]
  split_ifs <;> rfl

/-- A data read that runs past the store writes every byte up to its end, records the first write outside, and sends no
status (43_store_write R123; log 7). -/
theorem State.takeData_overruns (len : Byte) {k : Nat} {data : List Byte} {s : State} (hwf : s.store.wf = true)
    (hf : s.fault = none) (hk : k ≤ s.params.storeBytes) (hlen : s.params.storeBytes < k + data.length) :
    ∃ m, s.takeData len k data = { s with
        store := m, handler := { s.handler with phase := .data len k },
        fault := some (.storeOverrun s.params.storeBytes (data.getD (s.params.storeBytes - k) 0x00#8)) } ∧
      ∀ a, m.read a = if k ≤ a ∧ a < s.params.storeBytes then data.getD (a - k) 0x00#8 else s.store.read a := by
  obtain ⟨m, hm, -, hread⟩ := burst_overruns (s := s.setHandlerPhase (.data len k)) hwf hf hk hlen
  refine ⟨m, ?_, hread⟩
  unfold State.takeData
  rw [hm]
  exact if_pos rfl

/-! ## The frame as it is found -/

/-- Where writes are admitted, and where there is no data byte, the instruction begins its data read and takes no more
than `Length` data bytes (43_store_write R121). -/
theorem exec_setColors (len : Byte) {data : List Byte} {s : State} (hb : s.writesBarred = false ∨ data = []) :
    exec (.setColors len data) s =
      .next ((s.beginRead (.data len 0)).takeData len 0 (data.take len.toNat)) :=
  State.admitWrites_eq _ (hb.imp_right fun hnil => by rw [hnil, List.take_nil])

/-- Settles O43: the data read stays inside the store, and its last byte has come. -/
theorem setColorsWritesStore : Obligations.SetColorsWritesStore := by
  rintro len data s ⟨hwf, -⟩ hdata hlen hf hb
  obtain ⟨m, hm, hread⟩ :=
    State.takeData_inside (len := len) (k := 0) (data := data) (s := s.beginRead (.data len 0)) hwf hf
      (by simpa [hdata] using hlen)
  refine ⟨m, ?_, fun a => by simpa using hread a⟩
  rw [exec_setColors len hb, List.take_of_length_le hdata.le, hm, if_pos (by omega)]
  rfl

/-- Settles O44: the data read stays inside the store, and bytes are still to come. -/
theorem setColorsWritesPrefix : Obligations.SetColorsWritesPrefix := by
  rintro len data s ⟨hwf, -⟩ hdata hlen hf hb
  obtain ⟨m, hm, hread⟩ :=
    State.takeData_inside (len := len) (k := 0) (data := data) (s := s.beginRead (.data len 0)) hwf hf
      (by simpa using hlen)
  refine ⟨m, ?_, fun a => by simpa using hread a⟩
  rw [exec_setColors len hb, List.take_of_length_le hdata.le, hm, if_neg (by omega), Nat.zero_add]
  rfl

/-- Settles O45: the data read runs past the store. -/
theorem setColorsOverruns : Obligations.SetColorsOverruns := by
  rintro len data s ⟨hwf, -⟩ hdata hlen hf hb
  obtain ⟨m, hm, hread⟩ :=
    State.takeData_overruns len (k := 0) (data := data) (s := s.beginRead (.data len 0)) hwf hf
      (Nat.zero_le _) (by simpa using hlen)
  refine ⟨m, { s.handler with phase := .data len 0, began := s.handler.now }, ?_, rfl, fun a => ?_⟩
  · rw [exec_setColors len (.inl hb), List.take_of_length_le hdata, hm]
    rfl
  · simpa using hread a

end Sys2Proof.Machine
end

section
/-! The same frame twice (43_store_write R125). A write of the value a byte holds changes nothing, and a burst leaves
its bytes as it writes them, so the second burst finds each of them there; where the first one recorded a fault, the
second ends at its first write. -/

namespace Sys2Proof.Machine

open Sys2Proof.Safety

theorem State.write_read_below {a k : Nat} (v : Byte) (s : State) (h : a < k) :
    (s.write k v).store.read a = s.store.read a := by
  unfold State.write
  split_ifs
  · exact Memory.read_write_other v (by omega)
  · rfl

/-- A burst leaves the addresses below its first one alone (43_store_write R121). -/
theorem burst_read_below (ds : List Byte) {a : Nat} : ∀ {k : Nat} (s : State), a < k →
    (burst k ds s).store.read a = s.store.read a := by
  induction ds with
  | nil => intros; rfl
  | cons d ds ih =>
    intro k s h
    rw [burst_cons]
    split_ifs
    · exact s.write_read_below d h
    · rw [ih _ (by omega), s.write_read_below d h]

/-- The first byte of a burst is at its first address, where that is in the store (43_store_write R121). -/
theorem burst_read_first {k : Nat} (d : Byte) (ds : List Byte) {s : State} (hwf : s.store.wf = true)
    (hk : k < s.params.storeBytes) : (burst k (d :: ds) s).store.read k = d := by
  have hwrite : (s.write k d).store.read k = d := by
    rw [State.write_inside d hk]
    exact Memory.read_write_same d hwf
  rw [burst_cons]
  split_ifs
  · exact hwrite
  · rw [burst_read_below ds _ (Nat.lt_succ_self k), hwrite]

/-- A burst from the store and the fault record that the same burst has left keeps the store (43_store_write R125). -/
theorem burst_again (ds : List Byte) : ∀ (k : Nat) {s u : State}, StoreInv s → u.params = s.params →
    u.store = (burst k ds s).store → u.fault = (burst k ds s).fault → (burst k ds u).store = u.store := by
  induction ds with
  | nil => intros; rfl
  | cons d ds ih =>
    intro k s u hs hparams hstore hfault
    by_cases hk : k < s.params.storeBytes
    · have hwf : u.store.wf = true := hstore ▸ (burst_storeInv (d :: ds) k hs).1
      have hread : u.store.read k = d := hstore ▸ burst_read_first d ds hs.1 hk
      have hwrite : u.write k d = u := by
        rw [State.write_inside d (hparams ▸ hk), ← hread, Memory.write_read_self k hwf]
      rw [burst_cons, hwrite]
      split_ifs with hu
      · rfl
      · rw [burst_cons] at hstore hfault
        split_ifs at hstore hfault with hw
        · exact absurd (hfault ▸ hw) hu
        · exact ih (k + 1) (write_storeInv k d hs) (by rw [hparams, State.write_params]) hstore hfault
    · rw [burst_cons, State.write_outside d (hparams ▸ Nat.le_of_not_lt hk)]
      rfl

/-- A data read changes the store, and the fault record, by its burst only (43_store_write R121). -/
theorem State.takeData_burst (len : Byte) (k : Nat) (data : List Byte) (s : State) :
    (s.takeData len k data).store = (burst k data (s.setHandlerPhase (.data len k))).store ∧
      (s.takeData len k data).fault = (burst k data (s.setHandlerPhase (.data len k))).fault := by
  unfold State.takeData
  dsimp only
  split_ifs <;> exact ⟨rfl, rfl⟩

/-- Whether writes are barred is nothing that the polled context moves (20_memory R47, 60_exceptions R145). -/
theorem PolledFrame.writesBarred {s s' : State} (h : PolledFrame s s') : s'.writesBarred = s.writesBarred := by
  rw [h]
  rfl

/-- Settles O49: the second frame is the same burst, from the store and the fault record of the first. -/
theorem burstIsIdempotent : Obligations.BurstIsIdempotent := by
  intro len data s hs hb
  have hfirst := exec_setColors len hb
  generalize hu : (s.beginRead (.data len 0)).takeData len 0 (data.take len.toNat) = u at hfirst
  have hframe : PolledFrame s u :=
    hu ▸ PolledFrame.trans (b := s.beginRead _) rfl (State.takeData_polledFrame len 0 _ _)
  obtain ⟨hstore, hfault⟩ := State.takeData_burst len 0 (data.take len.toNat) (s.beginRead (.data len 0))
  rw [hu] at hstore hfault
  refine ⟨u, _, hfirst, exec_setColors len (by rwa [hframe.writesBarred]), ?_⟩
  rw [(State.takeData_burst len 0 (data.take len.toNat) (u.beginRead (.data len 0))).1]
  exact burst_again _ 0 (s := (s.beginRead (.data len 0)).setHandlerPhase (.data len 0))
    (u := (u.beginRead (.data len 0)).setHandlerPhase (.data len 0)) hs (congrArg State.params hframe :) hstore hfault

end Sys2Proof.Machine
end

section
/-! A move of the handler (43_store_write R127, R128), by the timing of its read: in time it reads on, with the bytes of
its burst, the frame it finds, or a wait; and past the deadline it sends TIMEOUT. -/

namespace Sys2Proof.Machine

open Sys2Proof.Safety

/-! ## What reading on answers -/

theorem State.readOnWith_data {s : State} {len : Byte} {k : Nat} (hp : s.handler.phase = .data len k) (bound : Nat) :
    s.readOnWith exec bound = s.admitWrites (s.readable bound (len.toNat - k))
      ((s.setRx (s.handler.rx.drop (s.readable bound (len.toNat - k)).length)).takeData len k
        (s.readable bound (len.toNat - k))) := by
  unfold State.readOnWith
  rw [hp]

/-- Outside a data read the handler decodes the header bytes it has read and the bytes that wait (43_store_write
R127). -/
theorem State.readOnWith_decoded {s : State} (hp : ∀ len k, s.handler.phase ≠ .data len k) (bound : Nat) :
    (∀ i rest, decodeFrame (s.handler.phase.header ++ s.waiting) = .ok (i, rest) →
      s.readOnWith exec bound = exec i (s.setRx (s.handler.rx.drop (s.handler.rx.length - rest.length)))) ∧
    ∀ e, decodeFrame (s.handler.phase.header ++ s.waiting) = .error e →
      s.readOnWith exec bound = .next (s.await e) := by
  unfold State.readOnWith
  split
  · exact absurd (by assumption) (hp _ _)
  · exact ⟨fun i rest hd => by rw [hd], fun e hd => by rw [hd]⟩

theorem step_poll {s : State} (h : NextIs s .poll) : step s = s.dropLine.pollWith exec := step_eq h

theorem State.dropLine_timing (s : State) : s.dropLine.timing = s.timing := rfl

theorem State.pollWith_inTime {s : State} (h : s.timing = .inTime) :
    s.pollWith exec = s.readOnWith exec s.deadline := by
  rw [State.pollWith, h]

theorem step_poll_inTime {s : State} (h : NextIs s .poll) (ht : s.timing = .inTime) :
    step s = s.dropLine.readOnWith exec s.deadline := by
  rw [step_poll h, State.pollWith_inTime (s.dropLine_timing.trans ht)]
  rfl

/-- Settles O8: the handler in time decodes, and runs what it finds. -/
theorem pollRunsDecodedFrame : Obligations.PollRunsDecodedFrame := by
  intro s i rest hl ht hp hd
  rw [step_poll_inTime hl ht, (State.readOnWith_decoded (s := s.dropLine) hp _).1 i rest hd]
  rfl

/-! ## The header in parts -/

theorem step_poll_await {s : State} {e : DecodeError} (h : NextIs s .poll) (ht : s.timing = .inTime)
    (hp : ∀ len k, s.handler.phase ≠ .data len k)
    (hd : decodeFrame (s.handler.phase.header ++ s.waiting) = .error e) :
    step s = .next (s.dropLine.await e) := by
  rw [step_poll_inTime h ht, (State.readOnWith_decoded (s := s.dropLine) hp _).2 e hd]

theorem State.await_noAction {s : State} (h : s.handler.phase ≠ .action) :
    s.await .noAction = (s.setRx []).beginRead .action := if_neg h

theorem State.await_noLength {s : State} (h : s.handler.phase ≠ .length) :
    s.await .noLength = (s.setRx []).beginRead .length := if_neg h

/-- Where no byte of the header is there, the read in progress goes on as it was (43_store_write R127, R128). -/
theorem State.await_none {s : State} (hp : s.handler.phase = .idle ∨ s.handler.phase = .action ∨
    s.handler.phase = .length) : ∃ e, decodeFrame s.handler.phase.header = .error e ∧ s.await e = s := by
  obtain hp | hp | hp := hp <;> rw [hp]
  · exact ⟨_, decodeFrame_nil, rfl⟩
  · exact ⟨_, decodeFrame_start, if_pos hp⟩
  · exact ⟨_, decodeFrame_header, if_pos hp⟩

/-- Settles O48: the header bytes that have come are a frame whose next byte is not there. -/
theorem handlerWaitsForHeader : Obligations.HandlerWaitsForHeader := by
  refine ⟨fun s hl hp hw => ?_, fun s hl hp hw => ?_, fun s hl ht hp hw => ?_, fun s hl ht hrx hp => ?_⟩
  · rw [step_poll_await hl (State.timing_idle hp) (by simp [hp]) (by rw [hp, hw]; exact decodeFrame_start),
      State.await_noAction (by simp [hp])]
    rfl
  · rw [step_poll_await hl (State.timing_idle hp) (by simp [hp]) (by rw [hp, hw]; exact decodeFrame_header),
      State.await_noLength (by simp [hp])]
    rfl
  · rw [step_poll_await hl ht (by simp [hp]) (by rw [hp, hw]; exact decodeFrame_header),
      State.await_noLength (by simp [hp])]
    rfl
  · obtain ⟨e, hd, hwait⟩ := State.await_none (s := s.dropLine) hp
    have hwaiting : s.waiting = [] := by rw [State.waiting, hrx, List.map_nil]
    rw [step_poll_await hl ht (by rintro len k h; simp [h] at hp) (by rw [hwaiting, List.append_nil]; exact hd), hwait]
    rfl

/-! ## The burst in progress -/

/-- A data read in time takes, of the bytes that came before its deadline, those that are still to come (43_store_write
R121, R128; log 13). -/
theorem step_poll_data {s : State} {len : Byte} {k : Nat} {came : List Received} {data : List Byte}
    (hl : NextIs s .poll) (hp : s.handler.phase = .data len k) (ht : s.timing = .inTime)
    (hcame : came = s.handler.rx.takeWhile fun b => b.time < s.handler.began + s.params.readTimeout)
    (hdata : data = (came.map Received.byte).take (len.toNat - k)) (hb : s.writesBarred = false ∨ came = []) :
    step s = .next ((s.dropLine.setRx (s.handler.rx.drop data.length)).takeData len k data) := by
  have hread : s.dropLine.readable s.deadline (len.toNat - k) = data := by rw [hdata, hcame]; rfl
  rw [step_poll_inTime hl ht, State.readOnWith_data (s := s.dropLine) hp, hread]
  exact State.admitWrites_eq _ (hb.imp_right fun hnil => by rw [hdata, hnil]; exact List.take_nil)

/-- Settles O46: the move is a data read of the bytes that came, which stays inside the store or runs past its end. -/
theorem burstGoesOn : Obligations.BurstGoesOn := by
  rintro s len k came ⟨hwf, -⟩ hl hp hk ht hcame hb
  obtain ⟨data, hdata⟩ : ∃ data, data = (came.map Received.byte).take (len.toNat - k) := ⟨_, rfl⟩
  have hlen : data.length = min (len.toNat - k) came.length := by rw [hdata, List.length_take, List.length_map]
  have hget (i : Nat) (hi : i < len.toNat - k) : data.getD i 0x00#8 = (came.map Received.byte).getD i 0x00#8 := by
    rw [hdata, List.getD_eq_getElem?_getD, List.getElem?_take_of_lt hi, List.getD_eq_getElem?_getD]
  rw [step_poll_data hl hp ht hcame hdata hb]
  refine ⟨fun hin => ?_, fun hks hout => ?_⟩
  · obtain ⟨m, hm, hread⟩ := State.takeData_inside (len := len) (k := k) (data := data)
      (s := s.dropLine.setRx (s.handler.rx.drop data.length)) hwf hl.1 (show _ ≤ s.params.storeBytes by omega)
    refine ⟨m, ?_, fun a => ?_⟩
    · rw [hm]
      by_cases hall : len.toNat ≤ k + came.length
      · rw [if_pos hall, if_pos (by omega)]
        rfl
      · rw [if_neg hall, if_neg (by omega), show data.length = came.length by omega]
        rfl
    · rw [hread a]
      by_cases ha : k ≤ a ∧ a < len.toNat ∧ a < k + came.length
      · rw [if_pos ha, if_pos (by omega), hget _ (by omega)]
      · rw [if_neg ha, if_neg (by omega)]
        rfl
  · obtain ⟨m, hm, hread⟩ := State.takeData_overruns len (k := k) (data := data)
      (s := s.dropLine.setRx (s.handler.rx.drop data.length)) hwf hl.1 hks (show s.params.storeBytes < _ by omega)
    refine ⟨m, { s.handler with phase := .data len k, rx := s.handler.rx.drop data.length }, ?_, rfl, fun a => ?_⟩
    · rw [hm, ← hget _ (by omega)]
      rfl
    · rw [hread a]
      refine if_ctx_congr Iff.rfl (fun ha => hget _ ?_) fun _ => rfl
      have hend : a < s.params.storeBytes := ha.2
      omega

/-! ## The deadline -/

/-- The moment of the next byte, and the present one where none has come (43_store_write R128). -/
theorem State.readMoment_of_forall {P : Nat → Prop} {s : State}
    (hbyte : ∀ b, s.handler.rx.head? = some b → P b.time) (hnone : s.handler.rx = [] → P s.handler.now) :
    P s.readMoment := by
  unfold State.readMoment
  cases hrx : s.handler.rx with
  | nil => exact hnone hrx
  | cons b rest => exact hbyte b (by rw [hrx]; rfl)

/-- A timeout drains the input and sends 0xE0 (43_store_write R127, 30_encoding R59). -/
theorem State.timeOut_eq (s : State) :
    s.timeOut = { s with handler := { s.handler with phase := .idle, rx := [], tx := s.handler.tx ++ [0xE0#8] } } :=
  s.endFrame_eq .timeout

theorem State.pollWith_late {s : State} (h : s.timing = .late) : s.pollWith exec = .next s.timeOut := by
  rw [State.pollWith, h]

/-- At the deadline the read times out or goes on, by a free value that is drawn once (log 12). -/
theorem State.pollWith_tie {s : State} (h : s.timing = .tie) :
    s.pollWith exec = .next s.drawFree.timeOut ∨ s.pollWith exec = s.drawFree.readOnWith exec (s.deadline + 1) := by
  rw [State.pollWith, h]
  dsimp only
  split_ifs
  · exact .inl rfl
  · exact .inr rfl

/-- Settles O47: the read is late, or ties with its deadline, by the moment of its next byte. -/
theorem deadlineSendsTimeout : Obligations.DeadlineSendsTimeout := by
  refine ⟨fun s hl hp hbyte hnone => ?_, fun s hl hp hbyte hnone => ?_⟩
  · obtain ⟨-, -, hlate⟩ := State.timing_cases hp
    have ht : s.timing = .late := hlate.2 (State.readMoment_of_forall (P := (s.deadline < ·)) hbyte hnone)
    rw [step_poll hl, State.pollWith_late (s.dropLine_timing.trans ht), State.timeOut_eq]
    rfl
  · obtain ⟨-, htie, -⟩ := State.timing_cases hp
    have ht : s.timing = .tie := htie.2 (State.readMoment_of_forall (P := (· = s.deadline)) hbyte hnone)
    rw [step_poll hl]
    refine (State.pollWith_tie (s.dropLine_timing.trans ht)).imp (fun h => ?_) fun h => h
    rw [h, State.timeOut_eq]
    rfl

/-! ## What reaches the handler -/

/-- Settles O55: the two lines by their meanings. -/
theorem arrivalAndTime : Obligations.ArrivalAndTime :=
  ⟨fun _ _ h => step_eq h, fun _ _ h => step_eq h⟩

end Sys2Proof.Machine
end

section
/-! The fault record (60_exceptions R142, R143): what a step from a recorded fault answers, and what `raise` leaves. -/

namespace Sys2Proof.Machine

open Sys2Proof.Safety

/-- From a recorded fault a step is a `RESET` or stops with that fault (60_exceptions R143; log 7). -/
theorem step_faulted {s : State} {f : Fault} (hf : s.fault = some f) :
    step s = if s.nextLine = .reset then .next s.dropLine.restart else .fault f := by
  rw [step, State.stepWith, hf]

/-- `RESET` has its meaning with and without a recorded fault (60_exceptions R143). -/
theorem step_reset {s : State} (hl : s.nextLine = .reset) : step s = .next s.dropLine.restart := by
  cases hf : s.fault with
  | none => exact step_eq ⟨hf, hl⟩
  | some f => rw [step_faulted hf, if_pos hl]

/-- Settles O15: the step stops at the fault record. -/
theorem stopsAfterFault : Obligations.StopsAfterFault := fun _ _ hf hl => (step_faulted hf).trans (if_neg hl)

/-- Settles O14: a step that is no `RESET` goes on only without a fault, and `raise` keeps the fault that is there. -/
theorem faultIsSticky : Obligations.FaultIsSticky := by
  refine ⟨fun s s' f hf h => ?_, fun s hl => ⟨_, step_reset hl, rfl⟩, fun s f g hf => ?_, fun s g hf => ?_⟩
  · by_contra hl
    cases hf.symm.trans (fault_none_of_step_next h hl)
  · rw [State.raise_fault, hf, Option.getD_some]
  · rw [State.raise_fault, hf, Option.getD_none]

end Sys2Proof.Machine
end

section
/-! The two contexts (60_exceptions R145). A polled line is made of admitted writes and of moves of the handler, so that
it keeps whatever those keep. -/

namespace Sys2Proof.Machine

open Sys2Proof.Safety

/-- A step that is no `RESET` and goes on is the event of its line. -/
theorem performWith_of_step_next {s s' : State} (h : step s = .next s') (hl : s.nextLine ≠ .reset) :
    s.dropLine.performWith exec s.nextLine = .next s' :=
  (step_eq ⟨fault_none_of_step_next h hl, rfl⟩).symm.trans h

/-! ## What a polled line is made of -/

/-- `P` is kept by the two things that a polled line is made of: a write where writes are admitted (20_memory R47), and
a move of the handler, which may draw a free value. -/
structure KeptByPolled (P : State → Prop) : Prop where
  write   : ∀ (s : State) (a : Nat) (v : Byte), s.writesBarred = false → P s → P (s.write a v)
  handler : ∀ (s : State) (h : Handler) (n : Nat), P s → P { s with handler := h, freeCtr := n }

section
variable {P : State → Prop} (hP : KeptByPolled P)
include hP

theorem KeptByPolled.burst (ds : List Byte) : ∀ (k : Nat) {s : State}, s.writesBarred = false ∨ ds = [] → P s →
    P (burst k ds s) := by
  induction ds with
  | nil => exact fun _ _ _ hs => hs
  | cons d ds ih =>
    intro k s hw hs
    have hadmit : s.writesBarred = false := hw.resolve_right (List.cons_ne_nil d ds)
    have hwrite : P (s.write k d) := hP.write s k d hadmit hs
    rw [burst_cons]
    split_ifs
    · exact hwrite
    · exact ih (k + 1) (.inl ((State.write_polledFrame k d s).writesBarred.trans hadmit)) hwrite

theorem KeptByPolled.takeData (len : Byte) (k : Nat) {data : List Byte} {s : State}
    (hw : s.writesBarred = false ∨ data = []) (hs : P s) : P (s.takeData len k data) := by
  have hburst : P (Machine.burst k data (s.setHandlerPhase (.data len k))) :=
    hP.burst data k (s := s.setHandlerPhase _) hw (hP.handler s _ _ hs)
  unfold State.takeData
  generalize Machine.burst k data _ = u at hburst
  dsimp only
  split_ifs
  · exact hburst
  · exact hP.handler u _ _ hburst
  · exact hP.handler u _ _ hburst

theorem KeptByPolled.await (e : DecodeError) {s : State} (hs : P s) : P (s.await e) := by
  cases e with
  | noInput => exact hs
  | noAction | noLength =>
    unfold State.await
    dsimp only
    split_ifs
    · exact hs
    · exact hP.handler s _ _ hs

theorem KeptByPolled.exec_frame {bytes rest : List Byte} {i : Instr} {s s' : State}
    (hi : decodeFrame bytes = .ok (i, rest)) (hs : P s) (h : exec i s = .next s') : P s' := by
  obtain ⟨len, data, rfl⟩ | ⟨action, rfl⟩ | ⟨start, rfl⟩ := decodeFrame_not_counter hi
  · obtain ⟨rfl, hw⟩ := State.admitWrites_next h
    exact hP.takeData len 0 (s := s.beginRead _) hw (hP.handler s _ _ hs)
  · injection h with h
    exact h ▸ hP.handler s _ _ hs
  · injection h with h
    exact h ▸ hP.handler s _ _ hs

theorem KeptByPolled.readOnWith {bound : Nat} {s s' : State} (hs : P s)
    (h : s.readOnWith exec bound = .next s') : P s' := by
  obtain ⟨len, k, -, hw, rfl⟩ | ⟨i, rest, hi, h⟩ | ⟨e, -, rfl⟩ := State.readOnWith_next h
  · exact hP.takeData len k (s := s.setRx _) hw (hP.handler s _ _ hs)
  · exact hP.exec_frame (s := s.setRx (s.handler.rx.drop _)) hi (hP.handler s _ _ hs) h
  · exact hP.await e hs

theorem KeptByPolled.pollWith {s s' : State} (hs : P s) (h : s.pollWith exec = .next s') : P s' := by
  obtain ⟨-, h⟩ | ⟨-, rfl | h⟩ | ⟨-, rfl⟩ := State.pollWith_next h
  · exact hP.readOnWith hs h
  · exact hP.handler s _ _ hs
  · exact hP.readOnWith (s := s.drawFree) (hP.handler s _ _ hs) h
  · exact hP.handler s _ _ hs

theorem KeptByPolled.performWith {l : Line} (hl : polledLine l = true) {s s' : State} (hs : P s)
    (h : s.performWith exec l = .next s') : P s' := by
  cases l with
  | wr a v =>
    obtain ⟨rfl, hw⟩ := State.admitWrites_next h
    exact hP.write s a v (hw.resolve_right (List.cons_ne_nil v [])) hs
  | setColors data =>
    obtain ⟨rfl, hw⟩ := State.admitWrites_next h
    exact hP.burst data 0 hw hs
  | rx | elapse =>
    injection h with h
    exact h ▸ hP.handler s _ _ hs
  | poll => exact hP.pollWith hs h
  | reset | tick | tick0 | rstep => cases hl

end

/-! ## The frames of the contexts -/

/-- Neither a write nor a move of the handler takes a line of the script. -/
theorem keptByPolled_script (script : List Line) : KeptByPolled fun s => s.script = script where
  write s a v _ hs := by rw [State.write_frame]; exact hs
  handler _ _ _ hs := hs

/-- Settles O53: the polled lines keep their frame, and take one line of the script. -/
theorem polledContextFrame : Obligations.PolledContextFrame := by
  intro s s' hl h
  have hperform := performWith_of_step_next h (ne_reset_of_polledLine hl)
  have hframe : PolledFrame s s' := s.dropLine_polledFrame.trans (State.performWith_polledFrame hl hperform)
  have hscript : s'.script = s.script.tail := (keptByPolled_script s.script.tail).performWith hl rfl hperform
  unfold PolledFrame at hframe
  rwa [hscript] at hframe

/-- The periodic frame as one record. -/
theorem PeriodicFrame.eq {s s' : State} (h : PeriodicFrame s s') :
    s' = { s with
      cnt := s'.cnt, latch := s'.latch, rs := s'.rs, sdo := s'.sdo, sck := s'.sck, txn := s'.txn, out := s'.out,
      fault := s'.fault, t := s'.t, chain := s'.chain } := by
  obtain ⟨hparams, hstore, hhandler, hscript, hfree, -⟩ := h
  rw [← hparams, ← hstore, ← hhandler, ← hscript, ← hfree]

/-- Settles O54: the periodic lines keep their frame from the state that has taken its line. -/
theorem periodicContextFrame : Obligations.PeriodicContextFrame := fun s _ hl h =>
  (State.performWith_periodicFrame (s := s.dropLine) hl
    (performWith_of_step_next h (ne_reset_of_periodicLine hl))).eq

end Sys2Proof.Machine
end

section
/-! What a step may record (60_exceptions R142): never `BadMask`, which only `RENDER(m)` outside the gate raises
(41_render R95). -/

namespace Sys2Proof.Machine

open Sys2Proof.Safety

/-- A fault that was not recorded is recorded only by its own `raise`. -/
theorem State.raise_fault_ne {s : State} {f g : Fault} (hs : s.fault ≠ some f) (hg : g ≠ f) :
    (s.raise g).fault ≠ some f := by
  rw [State.raise_fault]
  cases hf : s.fault with
  | none => exact fun h => hg (Option.some.inj h)
  | some f' => exact hf ▸ hs

/-- A write records `StoreOverrun` or nothing (20_memory R33). -/
theorem keptByPolled_not_badMask (m : Byte) : KeptByPolled fun s => s.fault ≠ some (.badMask m) where
  write s a v _ hs := by
    unfold State.write
    split_ifs
    · exact hs
    · exact State.raise_fault_ne hs nofun
  handler _ _ _ hs := hs

/-- A tick records `RenderOverrun` or nothing: the mask at the gate has one bit set (40_scheduler R70, R73). -/
theorem tick0_not_badMask {m : Byte} {s s' : State} (hs : s.fault ≠ some (.badMask m))
    (h : s.tick0With exec = .next s') : s'.fault ≠ some (.badMask m) := by
  have hentry : s.tickEntry.fault ≠ some (.badMask m) := by
    obtain ⟨-, he⟩ | ⟨-, he⟩ := s.tickEntry_cases <;> rw [he]
    · exact State.raise_fault_ne (g := .renderOverrun s.cnt s.rs.mask) hs nofun
    · exact hs
  obtain rfl | ⟨-, -, rfl⟩ := State.tick0With_cases h <;> exact hentry

/-- Settles O21: the masks of `RENDER.Pk` are one-hot, and each part of a step records another fault or none. -/
theorem renderOutsideTheGate : Obligations.RenderOutsideTheGate := by
  refine ⟨fun i s hi hb => ?_, fun m s hm => if_pos hm, fun s s' m h hs => ?_⟩
  · rw [exec_render hi, State.render, if_neg (not_not.2 (popcount_renderMask hi)), if_pos hb]
    rfl
  · obtain ⟨-, rfl⟩ | ⟨hl, hperform⟩ | ⟨hl, hperform⟩ := step_next_cases h
    · exact nofun
    · exact (keptByPolled_not_badMask m).performWith hl (s := s.dropLine) hs hperform
    · exact State.performWith_periodic_induction (P := fun u => u.fault ≠ some (.badMask m)) (s := s.dropLine) hs
        (fun _ => tick0_not_badMask hs) (fun _ _ hu hv => (State.microStep_passFrame hv).fault ▸ hu) hl hperform

end Sys2Proof.Machine
end

section
/-! A write in the same instant as an event of the renderer (60_exceptions R139): a micro-step reads one byte of the
store and a tick reads none, and neither looks at the rest of it. -/

namespace Sys2Proof.Machine

open Sys2Proof.Config Sys2Proof.Safety

/-! ## The micro-step -/

theorem State.flush_withStore (store : Memory) (s : State) :
    { s with store := store }.flush = { s.flush with store := store } := by
  by_cases hd : s.flushDue = true
  · have hd' : { s with store := store }.flushDue = true := hd
    rw [State.flush, State.flush, if_pos hd, if_pos hd', State.shiftByte_withStore]
    rfl
  · rw [State.flush_of_not_due hd, State.flush_of_not_due (s := { s with store := store }) hd]

theorem State.advance_withStore (store : Memory) (s : State) :
    { s with store := store }.advance = { s.advance with store := store } := by
  unfold State.advance
  dsimp only
  split_ifs
  · rfl
  · split <;> rfl

/-- A micro-step does not read the store once it has its byte (41_render R89, R90, R91). -/
theorem State.absorb_withStore (v : Byte) (store : Memory) (s : State) :
    { s with store := store }.absorb v = { s.absorb v with store := store } :=
  (congrArg State.advance (State.flush_withStore store (s.pack (extractBit v s.rs.mask)))).trans
    (State.advance_withStore store _)

/-- Settles O41: the byte that is read is another one, and the rest of the micro-step reads none. -/
theorem writeCommutesWithMicroStep : Obligations.WriteCommutesWithMicroStep := by
  intro s a v hb hsec ha hne
  have hsec : s.rs.sec ≤ s.params.lastSector := Nat.le_of_lt_succ hsec
  have haddr := State.readAddr_eq hsec
  have hin : s.readAddr < s.params.storeBytes := haddr ▸ channelAddr_lt s.rs.ch hsec
  have hframe := State.absorb_passFrame (s.store.read s.readAddr) s
  have hread : (s.store.write a v).read s.readAddr = s.store.read s.readAddr :=
    Memory.read_write_other v (haddr ▸ hne.symm)
  refine ⟨_, State.microStep_eq hb hin, ?_⟩
  rw [State.write_inside v ha, State.write_inside v (hframe.params ▸ ha), hframe.store, ← State.absorb_withStore,
    ← hread]
  exact State.microStep_eq (s := { s with store := s.store.write a v }) hb hin

/-! ## The tick -/

/-- A tick on an idle machine without a fault starts a pass where the new counter value has one bit set, and else is its
entry (40_scheduler R70, R73, R74). -/
theorem State.tick0With_idle_next {s : State} (hb : s.busy = false) (hf : s.fault = none) :
    s.tick0With exec = .next
      (if popcount (s.cnt + 1#8) = 1 then s.tickEntry.startPass (s.cnt + 1#8) else s.tickEntry) := by
  obtain ⟨hrun, hentry⟩ := State.tick0With_idle hb hf
  have hidle : s.tickEntry.busy = false := by rw [hentry]; exact hb
  rw [hrun]
  split_ifs with hp
  · rw [exec_decodeCnt_render hp, State.render, if_neg (not_not.2 hp), if_neg (by simp [hidle])]
  · exact exec_decodeCnt_idle hp _

/-- Settles O42: the entry of a tick and the start of a pass keep the store and do not read it. -/
theorem writeCommutesWithTick : Obligations.WriteCommutesWithTick := by
  intro s a v hf hb ha
  obtain ⟨-, hentry⟩ := State.tick0With_idle hb hf
  obtain ⟨-, hentry'⟩ := State.tick0With_idle (s := { s with store := s.store.write a v }) hb hf
  refine ⟨_, State.tick0With_idle_next hb hf, ?_⟩
  rw [State.write_inside v ha, State.tick0With_idle_next (s := { s with store := s.store.write a v }) hb hf, hentry,
    hentry']
  dsimp only
  split_ifs <;> rw [State.write_inside v (by exact ha)] <;> rfl

end Sys2Proof.Machine
end

section
/-! Every event is taken (60_exceptions R137, R138), but a micro-step that does not exist and a write inside an atomic
pass (20_memory R47). -/

namespace Sys2Proof.Machine

open Sys2Proof.Safety

/-! ## The polled lines -/

/-- `r` answers an event that writes a byte exactly where `writes` is true, and finds writes `barred` or admitted
(20_memory R47; log 10): it is a next state, or the refusal where both are true. -/
structure AnswersWrites (barred writes : Bool) (r : Result) : Prop where
  taken   : (writes = true → barred = false) → ∃ s', r = .next s'
  refused : writes = true → barred = true → r = .refused .writeInsidePass

theorem AnswersWrites.next (barred : Bool) (s' : State) : AnswersWrites barred false (.next s') where
  taken _ := ⟨s', rfl⟩
  refused := nofun

theorem State.admitWrites_answersWrites (s : State) (data : List Byte) (s' : State) :
    AnswersWrites s.writesBarred (!data.isEmpty) (s.admitWrites data s') where
  taken h := by
    refine ⟨s', State.admitWrites_eq s' ?_⟩
    cases data with
    | nil => exact .inr rfl
    | cons d ds => exact .inl (h rfl)
  refused hw hb := State.admitWrites_refused s' hb (by simpa using hw)

/-- A `SETCOLORS` frame writes the data bytes it holds, no more than Length (43_store_write R121). -/
theorem exec_setColors_admitWrites {len : Byte} {data : List Byte} (h : data.length ≤ len.toNat) (s : State) :
    exec (.setColors len data) s = s.admitWrites data ((s.beginRead (.data len 0)).takeData len 0 data) := by
  show s.admitWrites (data.take len.toNat) ((s.beginRead (.data len 0)).takeData len 0 (data.take len.toNat)) = _
  rw [List.take_of_length_le h]

/-- Of the instructions of the frame decode only `SETCOLORS` writes (43_store_write R127). -/
theorem exec_frame_taken {bytes rest : List Byte} {i : Instr} (hi : decodeFrame bytes = .ok (i, rest))
    (hno : ∀ len data, i ≠ .setColors len data) (s : State) : ∃ s', exec i s = .next s' := by
  obtain ⟨len, data, rfl⟩ | ⟨action, rfl⟩ | ⟨start, rfl⟩ := decodeFrame_not_counter hi
  · exact absurd rfl (hno len data)
  · exact ⟨_, rfl⟩
  · exact ⟨_, rfl⟩

theorem State.readOnWith_answersWrites (bound : Nat) (s : State) :
    AnswersWrites s.writesBarred (readWrites bound s) (s.readOnWith exec bound) := by
  unfold readWrites
  split
  next len k hp =>
    rw [State.readOnWith_data hp]
    exact s.admitWrites_answersWrites _ _
  next hp =>
    obtain ⟨hok, herror⟩ := State.readOnWith_decoded hp bound
    split
    next len data rest hd =>
      obtain ⟨b, -, hi, -⟩ | ⟨a, -, hi, -⟩ | ⟨_, _, hi, hlen, -⟩ := decodeFrame_ok hd <;> cases hi
      rw [hok _ _ hd, exec_setColors_admitWrites hlen]
      exact State.admitWrites_answersWrites (s.setRx _) data _
    next hno =>
      cases hd : decodeFrame (s.handler.phase.header ++ s.waiting) with
      | error e =>
        rw [herror e hd]
        exact .next _ _
      | ok found =>
        obtain ⟨i, rest⟩ := found
        obtain ⟨s', hs'⟩ := exec_frame_taken hd (fun len data hi => hno len data rest (hi ▸ hd))
          (s.setRx (s.handler.rx.drop (s.handler.rx.length - rest.length)))
        rw [hok i rest hd, hs']
        exact .next _ _

/-- A move of the handler writes where its read goes on and finds data bytes (43_store_write R121, R128). -/
theorem step_poll_answersWrites {s : State} (h : NextIs s .poll) :
    AnswersWrites s.writesBarred (nextWrites s) (step s) := by
  rw [step_poll h, nextWrites, h.2]
  dsimp only
  cases ht : s.timing with
  | inTime =>
    rw [State.pollWith_inTime (s.dropLine_timing.trans ht)]
    exact s.dropLine.readOnWith_answersWrites s.deadline
  | tie =>
    rw [State.pollWith, s.dropLine_timing, ht]
    have hfree : s.dropLine.nextFree = s.nextFree := rfl
    dsimp only
    rw [hfree]
    cases s.nextFree with
    | true => exact .next _ _
    | false => exact s.dropLine.drawFree.readOnWith_answersWrites (s.deadline + 1)
  | late =>
    rw [State.pollWith_late (s.dropLine_timing.trans ht)]
    exact .next _ _

theorem step_polled_answersWrites {s : State} (hf : s.fault = none) (hl : polledLine s.nextLine = true) :
    AnswersWrites s.writesBarred (nextWrites s) (step s) := by
  cases hline : s.nextLine with
  | poll => exact step_poll_answersWrites ⟨hf, hline⟩
  | wr a v =>
    rw [step_eq ⟨hf, hline⟩, nextWrites, hline]
    exact s.dropLine.admitWrites_answersWrites [v] _
  | setColors data =>
    rw [step_eq ⟨hf, hline⟩, nextWrites, hline]
    exact s.dropLine.admitWrites_answersWrites data _
  | rx | elapse =>
    rw [step_eq ⟨hf, hline⟩, nextWrites, hline]
    exact .next _ _
  | reset | tick | tick0 | rstep => rw [hline] at hl; cases hl

/-- Only lines of the writer write (30_encoding R62). -/
theorem polledLine_of_nextWrites {s : State} (h : nextWrites s = true) : polledLine s.nextLine = true := by
  cases hline : s.nextLine with
  | wr | setColors | rx | elapse | poll => rfl
  | reset | tick | tick0 | rstep =>
    rw [nextWrites, hline] at h
    cases h

/-! ## The periodic lines -/

/-- A tick is taken in every state without a fault: a pass in progress is an overrun, which is recorded (40_scheduler
R70, 60_exceptions R142). -/
theorem step_tick_taken {s : State} {l : Line} (h : NextIs s l) (hl : l = .tick ∨ l = .tick0) :
    ∃ s', step s = .next s' := by
  cases hb : s.busy with
  | true => exact ⟨_, tickDuringPassOverruns s l h hl hb⟩
  | false =>
    by_cases hp : popcount (s.cnt + 1#8) = 1
    · rcases hl with rfl | rfl
      · exact ⟨_, step_tick_render h hb hp⟩
      · exact ⟨_, (step_eq h).trans (State.tick0With_idle_next (s := s.dropLine) hb h.1)⟩
    · exact ⟨_, idleTick s l h hl hb hp⟩

theorem step_periodic_taken {s : State} (hinv : PassInv s) (hf : s.fault = none) (hl : periodicLine s.nextLine = true)
    (hrstep : s.nextLine = .rstep → s.busy = true) : ∃ s', step s = .next s' := by
  cases hline : s.nextLine with
  | tick => exact step_tick_taken ⟨hf, hline⟩ (.inl rfl)
  | tick0 => exact step_tick_taken ⟨hf, hline⟩ (.inr rfl)
  | rstep => exact ⟨_, step_rstep ⟨hf, hline⟩ (hrstep hline) (Nat.lt_succ_of_le hinv.1)⟩
  | reset | wr | setColors | rx | elapse | poll => rw [hline] at hl; cases hl

/-! ## Inside an atomic pass -/

/-- A pass in progress that has left its first sector is between its first and its last read (20_memory R41, R47). -/
theorem State.writesBarred_eq_true {s : State} (hatomic : s.params.passAtomic = true) (hb : s.busy = true)
    (hsec : s.rs.sec ≤ s.params.lastSector) (hplace : s.rs.ch ≠ .blue ∨ s.rs.sec ≠ s.params.lastSector) :
    s.writesBarred = true := by
  have hfirst : (s.rs.ch == .blue && s.rs.sec == s.params.lastSector) = false := by
    rw [Bool.and_eq_false_iff, beq_eq_false_iff_ne, beq_eq_false_iff_ne]
    exact hplace
  rw [State.writesBarred, State.insidePass, Sequencer.sector_eq hsec, hatomic, hb, hfirst]
  rfl

/-- Where writes are barred, a polled line moves the handler only (20_memory R47). -/
theorem keptByPolled_barred_store (store : Memory) :
    KeptByPolled fun s => s.writesBarred = true ∧ s.store = store where
  write _ _ _ hadmit hs := absurd hs.1 (Bool.eq_false_iff.1 hadmit)
  handler _ _ _ hs := hs

/-- Settles O34: a polled line is taken where its writes are admitted and refused where they are barred, and a periodic
one is taken where its micro-step exists. -/
theorem everyEventIsTaken : Obligations.EveryEventIsTaken := by
  have hrefused (s : State) (hf : s.fault = none) (hw : nextWrites s = true) (hb : s.writesBarred = true) :
      step s = .refused .writeInsidePass :=
    (step_polled_answersWrites hf (polledLine_of_nextWrites hw)).refused hw hb
  refine ⟨fun s hinv hf hrstep hadmit => ?_, fun s => State.writesBarred_eq_false,
    fun s a v h hatomic hb hsec hplace => ?_, hrefused, fun s s' hb h => ?_⟩
  · cases hline : s.nextLine with
    | reset => exact ⟨_, step_reset hline⟩
    | wr | setColors | rx | elapse | poll => exact (step_polled_answersWrites hf (by rw [hline]; rfl)).taken hadmit
    | tick | tick0 | rstep => exact step_periodic_taken hinv hf (by rw [hline]; rfl) hrstep
  · exact hrefused s h.1 (by rw [nextWrites, h.2]) (State.writesBarred_eq_true hatomic hb hsec hplace)
  · obtain ⟨hl, -⟩ | ⟨hl, hperform⟩ | ⟨hl, hperform⟩ := step_next_cases h
    · exact .inl hl
    · exact .inr ((keptByPolled_barred_store s.store).performWith hl (s := s.dropLine) ⟨hb, rfl⟩ hperform).2
    · exact .inr (State.performWith_periodicFrame hl hperform).store

end Sys2Proof.Machine
end

section
/-! `RESET` from any state (70_reset_and_hazards R165). -/

namespace Sys2Proof.Machine

open Sys2Proof.Config Sys2Proof.Safety

/-- `RESET` keeps of a state the parameters, the chain and the script: none of them is an element of the block
(70_reset_and_hazards R165). -/
theorem State.restart_keeps (s : State) :
    s.restart.params = s.params ∧ s.restart.chain = s.chain ∧ s.restart.script = s.script :=
  ⟨rfl, rfl, rfl⟩

/-- Settles O56: a `RESET` is taken in every state, busy or faulted; each element of the block then has the value it
has in `State.resetWith`, with the parameters of the state it came from, and the rest is kept. -/
theorem resetFromAnyState : Obligations.ResetFromAnyState := by
  intro s hline
  obtain ⟨hvalues, -⟩ := resetValues
  obtain ⟨-, hstore, hcnt, hlatch, hphase, hsdo, hsck, htxn, hout, hfault, ht⟩ := hvalues s.params
  obtain ⟨hparams, hchain, hscript⟩ := s.dropLine.restart_keeps
  exact ⟨s.dropLine.restart, step_reset hline, hstore, hcnt, hlatch, hphase, hsdo, hsck, htxn, hout, hfault, ht,
    hchain, hparams, hscript⟩

end Sys2Proof.Machine
end
